-- ==== Sys2Proof/Word.lean ====
section
/-! DEFINITION. The word types of the engine: bytes, 16-bit results and 32-bit operands (spec/00_scope.md R6, R7). The clock, the counters and the pin identifiers, whose widths R6 leaves to parameters, are natural numbers (logs 2, 9). -/

namespace Sys2Proof

/-- One byte: an opcode, an operand byte, a payload byte (R25, R72). -/
abbrev Byte := BitVec 8

/-- A result word of the read commands (R76). -/
abbrev Word16 := BitVec 16

/-- A `u32` operand: CONSTRUCT's `cpu` and the delays (R72, R77). -/
abbrev Word32 := BitVec 32

end Sys2Proof
end

