-- ==== Sys2Proof/Syntax.lean ====
section
/-! DEFINITION. The syntax of the engine: levels, modes, pin identifiers and the one inductive of instructions, one constructor per row of spec/opcode_table.json (five commands, R73; nine host requests, R77). -/

namespace Sys2Proof

/-- A pin level (R12, R70). -/
inductive Level where
  | low
  | high
  deriving DecidableEq, Repr, Inhabited

/-- The opposite level, `!L` of R12. -/
def Level.flip : Level → Level
  | .low => .high
  | .high => .low

/-- A pin mode (R12, R71). The reserved code 0b11 is no mode. -/
inductive Mode where
  | input
  | inputPullup
  | output
  deriving DecidableEq, Repr, Inhabited

/-- A pin identifier: opaque to the engine, which only stores it and passes it on (R6, R21, R75). The spec
leaves the type open; a natural number names an identifier of any countable type, and how many of them a
machine has is the parameter `Config.pinBytes` (DESIGN CHOICE, log 2). -/
structure PinId where
  /-- The host's number for the line. -/
  id : Nat
  deriving DecidableEq, Repr, Inhabited

/-- What the engine executes: the caller's commands (R73) and the host requests (R77). -/
inductive Instr where
  /-- `construct pin, cpu` (R100). -/
  | construct (pin : PinId) (cpu : Word32)
  /-- `initialize` (R101). -/
  | initializeCmd
  /-- `available` (R102). -/
  | available
  /-- `read_temperature` (R103). -/
  | readTemperature
  /-- `read_humidity` (R104). -/
  | readHumidity
  /-- `SET_MODE(pin, mode)` (R231); the mode is its 2-bit code (R71). -/
  | setMode (pin : PinId) (mode : BitVec 2)
  /-- `WRITE(pin, level)` (R232). -/
  | write (pin : PinId) (level : Level)
  /-- `READ(pin) -> level` (R233). -/
  | read (pin : PinId)
  /-- `NOW_MS -> t` (R234). -/
  | nowMs
  /-- `DELAY_MS(n)` (R235). -/
  | delayMs (n : Word32)
  /-- `DELAY_US(n)` (R236). -/
  | delayUs (n : Word32)
  /-- `PREEMPT_OFF` (R237). -/
  | preemptOff
  /-- `PREEMPT_ON` (R238). -/
  | preemptOn
  /-- `DEBUG(code)` (R239); the code is an outcome code of R301. -/
  | debug (code : Byte)
  deriving DecidableEq, Repr

end Sys2Proof
end

