-- ==== Sys2Proof/Config.lean ====
section
/-! DEFINITION. What an implementation fixes (the parameters of R6) and the free values the spec leaves open. The default values of the parameters stand in Sys2Proof/Machine/Params.lean. -/

namespace Sys2Proof

/-- The parameters of R6 (D5, D6, D8, D9, D17, D26). DESIGN CHOICE (log 8): State
carries them as a field no instruction writes, so that a statement over all states is one over all
parameter values. -/
structure Config where
  /-- The bytes a pin identifier takes on the interfaces: how many identifiers the open type `PinId` has
  (log 2). -/
  pinBytes : Nat
  /-- MS_BITS: width of the millisecond clock and of `S.lastTs` (R101, R108, R234). -/
  msBits : Nat
  /-- COUNT_BITS: width of the poll counter, of each pulse width and of `S.maxCycles` (R100, R215). -/
  countBits : Nat
  /-- TIMEOUT_US: pulse-measurement timeout in microseconds, an exact integer (R100). -/
  timeoutUs : Nat
  /-- MIN_INTERVAL_MS: minimum time between protocol runs (R108). -/
  minIntervalMs : Nat
  /-- IDLE_HIGH_MS: first delay of the start sequence (R150). -/
  idleHighMs : Word32
  /-- WAKE_LOW_MS: the wake signal (R152). -/
  wakeLowMs : Word32
  /-- END_HIGH_US: high after the wake signal (R153). -/
  endHighUs : Word32
  /-- SETTLE_US: wait after the release (R154). -/
  settleUs : Word32
  /-- RELEASE_MODE: mode the line is released to (R154, D9). -/
  releaseMode : Mode
  /-- DEBUG_ENABLED: whether the debug sink is driven (R239, D17). -/
  debugEnabled : Bool
  deriving DecidableEq, Repr

/-- Free value (log 3): the host's n-th answer to READ where no answer is listed. R233 makes it a draw
under no law. -/
opaque Config.freeLevel : Nat → Level

/-- Free value (log 3): the host's n-th answer to NOW_MS where no answer is listed. R234 makes it a draw
under no law; the clock's width MS_BITS bounds it. -/
opaque Config.freeClock : Nat → Nat

/-- Free value (log 4): byte k of the payload after START_FAIL or CAPTURE_TIMEOUT. R135 makes it a draw
of any five bytes. -/
opaque Config.freePayloadByte : Nat → Fin 5 → Byte

/-- Free value (log 7): `S.idx` after the capture's 80th result. R28 increments it past 79, R20 and R30
keep it in 0..79. -/
opaque Config.freeIdx : Nat → Fin 80

end Sys2Proof
end

