-- ==== Sys2Proof/WellFormed.lean ====
section
/-! DEFINITION. Well-formed instructions: an operand holds no code the spec reserves (R71, R301), and a pin identifier is one the machine has (R6). -/

namespace Sys2Proof

/-- The identifier fits the bytes the machine gives a pin (log 2). -/
def PinId.fits (pinBytes : Nat) (p : PinId) : Bool := p.id < 256 ^ pinBytes

/-- A pin operand fits `pinBytes` bytes, SET_MODE carries no reserved mode code (R71: 0b11 is reserved),
DEBUG carries one of the five outcome codes (R301; 93_implementation_defined.md Q6: 5 to 255 are never
produced). Every other operand value is legal. -/
def wellFormed (pinBytes : Nat) : Instr → Bool
  | .construct pin _ => pin.fits pinBytes
  | .initializeCmd => true
  | .available => true
  | .readTemperature => true
  | .readHumidity => true
  | .setMode pin mode => pin.fits pinBytes && mode != 0b11#2
  | .write pin _ => pin.fits pinBytes
  | .read pin => pin.fits pinBytes
  | .nowMs => true
  | .delayMs _ => true
  | .delayUs _ => true
  | .preemptOff => true
  | .preemptOn => true
  | .debug code => code.toNat ≤ 4

/-- The instruction is well formed on a machine whose pins take `pinBytes` bytes. -/
abbrev WellFormed (pinBytes : Nat) (i : Instr) : Prop := wellFormed pinBytes i = true

end Sys2Proof
end

