-- ==== Sys2Proof/Decode.lean ====
section
/-! DEFINITION. The decoder, total on any bytes and rejecting by name, and the encoder, both from the code tables of spec/30_encoding.md (R70 to R77) and R301. DESIGN CHOICE (log 1): the spec fixes the 8-bit code and the operands' order and types, not their bytes; here a `u32` takes four bytes and a pin `pinBytes` bytes (log 2), least significant first, and a mode, a level and an outcome code one byte each. -/

namespace Sys2Proof

/-! ## Codes of the operands -/

/-- Level codes (R70). -/
def Level.code : Level → Byte
  | .low => 0
  | .high => 1

/-- Mode codes (R71). -/
def Mode.code : Mode → BitVec 2
  | .input => 0b00
  | .inputPullup => 0b01
  | .output => 0b10

/-- The mode of a code; 0b11 is reserved (R71). -/
def Mode.ofCode (c : BitVec 2) : Option Mode :=
  if c = 0b00 then some .input
  else if c = 0b01 then some .inputPullup
  else if c = 0b10 then some .output
  else none

/-- The `k` bytes of a number, least significant first. -/
def natBytes : Nat → Nat → List Byte
  | 0, _ => []
  | k + 1, n => BitVec.ofNat 8 n :: natBytes k (n / 256)

/-- Takes a number of `k` bytes, least significant first; none where the bytes end before it does. -/
def takeNat : Nat → List Byte → Option (Nat × List Byte)
  | 0, bs => some (0, bs)
  | _ + 1, [] => none
  | k + 1, b :: bs => (takeNat k bs).map fun nr => (b.toNat + 256 * nr.1, nr.2)

/-- The bytes of a `u32` operand. -/
def wordBytes (w : Word32) : List Byte := natBytes 4 w.toNat

/-- The bytes of a pin operand. -/
def PinId.bytes (pinBytes : Nat) (p : PinId) : List Byte := natBytes pinBytes p.id

/-- The bytes a pin takes where nothing else is said (DESIGN CHOICE, log 2). -/
def defaultPinBytes : Nat := 4

/-! ## Decoding -/

/-- Why bytes are no instruction. -/
inductive Reject where
  /-- The bytes end before the instruction does. -/
  | truncated
  /-- The code selects no instruction (R74, R78). -/
  | unassignedOpcode (op : Byte)
  /-- A mode byte that is 0b11, the reserved mode, or wider than 2 bits (R71). -/
  | reservedMode (b : Byte)
  /-- A level byte that is neither 0 nor 1 (R70). -/
  | badLevel (b : Byte)
  /-- A DEBUG operand that is no outcome code (R301). -/
  | badOutcome (b : Byte)
  deriving DecidableEq, Repr

/-- What decoding answers: an instruction and the bytes after it, or why there is none. -/
abbrev Decoded := Except Reject (Instr × List Byte)

/-- Goes on after an operand of `k` bytes. -/
def withOperand (k : Nat) (bs : List Byte) (go : Nat → List Byte → Decoded) : Decoded :=
  match takeNat k bs with
  | some (n, rest) => go n rest
  | none => .error .truncated

/-- An instruction whose operands are one `u32`. -/
def decodeWord (mk : Word32 → Instr) (bs : List Byte) : Decoded :=
  withOperand 4 bs fun n rest => .ok (mk (BitVec.ofNat 32 n), rest)

/-- CONSTRUCT's operands: pin, then cpu (R72 format CMDC). -/
def decodeConstruct (pinBytes : Nat) (bs : List Byte) : Decoded :=
  withOperand pinBytes bs fun p rest => decodeWord (.construct ⟨p⟩) rest

/-- A mode byte (R71). -/
def decodeMode (pin : PinId) : List Byte → Decoded
  | m :: rest =>
    if m.toNat ≤ 2 then .ok (.setMode pin (m.extractLsb' 0 2), rest) else .error (.reservedMode m)
  | [] => .error .truncated

/-- SET_MODE's operands: pin, then mode (R77). -/
def decodeSetMode (pinBytes : Nat) (bs : List Byte) : Decoded :=
  withOperand pinBytes bs fun p rest => decodeMode ⟨p⟩ rest

/-- A level byte (R70). -/
def decodeLevel (pin : PinId) : List Byte → Decoded
  | l :: rest =>
    if l = 0 then .ok (.write pin .low, rest)
    else if l = 1 then .ok (.write pin .high, rest)
    else .error (.badLevel l)
  | [] => .error .truncated

/-- WRITE's operands: pin, then level (R77). -/
def decodeWrite (pinBytes : Nat) (bs : List Byte) : Decoded :=
  withOperand pinBytes bs fun p rest => decodeLevel ⟨p⟩ rest

/-- READ's operand: pin (R77). -/
def decodeRead (pinBytes : Nat) (bs : List Byte) : Decoded :=
  withOperand pinBytes bs fun p rest => .ok (.read ⟨p⟩, rest)

/-- DEBUG's operand: an outcome code (R77, R301). -/
def decodeDebug : List Byte → Decoded
  | c :: rest => if c.toNat ≤ 4 then .ok (.debug c, rest) else .error (.badOutcome c)
  | _ => .error .truncated

/-- The command interface (R72 to R74): 0x01 to 0x05; every other opcode selects no command. -/
def decodeCommand (pinBytes : Nat) : List Byte → Decoded
  | [] => .error .truncated
  | op :: rest =>
    if op = 0x01 then decodeConstruct pinBytes rest
    else if op = 0x02 then .ok (.initializeCmd, rest)
    else if op = 0x03 then .ok (.available, rest)
    else if op = 0x04 then .ok (.readTemperature, rest)
    else if op = 0x05 then .ok (.readHumidity, rest)
    else .error (.unassignedOpcode op)

/-- The platform interface (R77, R78): 0x80 to 0x88; no other code is a request. -/
def decodeRequest (pinBytes : Nat) : List Byte → Decoded
  | [] => .error .truncated
  | op :: rest =>
    if op = 0x80 then decodeSetMode pinBytes rest
    else if op = 0x81 then decodeWrite pinBytes rest
    else if op = 0x82 then decodeRead pinBytes rest
    else if op = 0x83 then .ok (.nowMs, rest)
    else if op = 0x84 then decodeWord .delayMs rest
    else if op = 0x85 then decodeWord .delayUs rest
    else if op = 0x86 then .ok (.preemptOff, rest)
    else if op = 0x87 then .ok (.preemptOn, rest)
    else if op = 0x88 then decodeDebug rest
    else .error (.unassignedOpcode op)

/-- Both interfaces: codes below 0x80 are the command interface's (R73), the others the platform
interface's (R77). -/
def decode (pinBytes : Nat) : List Byte → Decoded
  | [] => .error .truncated
  | op :: rest =>
    if op.toNat < 0x80 then decodeCommand pinBytes (op :: rest) else decodeRequest pinBytes (op :: rest)

/-! ## Encoding -/

/-- The 8-bit code of an instruction (R73, R77). -/
def opcode : Instr → Byte
  | .construct _ _ => 0x01
  | .initializeCmd => 0x02
  | .available => 0x03
  | .readTemperature => 0x04
  | .readHumidity => 0x05
  | .setMode _ _ => 0x80
  | .write _ _ => 0x81
  | .read _ => 0x82
  | .nowMs => 0x83
  | .delayMs _ => 0x84
  | .delayUs _ => 0x85
  | .preemptOff => 0x86
  | .preemptOn => 0x87
  | .debug _ => 0x88

/-- The operand bytes of an instruction. -/
def operandBytes (pinBytes : Nat) : Instr → List Byte
  | .construct pin cpu => pin.bytes pinBytes ++ wordBytes cpu
  | .initializeCmd => []
  | .available => []
  | .readTemperature => []
  | .readHumidity => []
  | .setMode pin mode => pin.bytes pinBytes ++ [mode.setWidth 8]
  | .write pin level => pin.bytes pinBytes ++ [level.code]
  | .read pin => pin.bytes pinBytes
  | .nowMs => []
  | .delayMs n => wordBytes n
  | .delayUs n => wordBytes n
  | .preemptOff => []
  | .preemptOn => []
  | .debug code => [code]

/-- The bytes of an instruction: its code, then its operands (R72, R77). -/
def encode (pinBytes : Nat) (i : Instr) : List Byte := opcode i :: operandBytes pinBytes i

/-- The instruction is one of the caller's commands (R73). -/
def Instr.isCommand : Instr → Bool
  | .construct _ _ => true
  | .initializeCmd => true
  | .available => true
  | .readTemperature => true
  | .readHumidity => true
  | .setMode _ _ => false
  | .write _ _ => false
  | .read _ => false
  | .nowMs => false
  | .delayMs _ => false
  | .delayUs _ => false
  | .preemptOff => false
  | .preemptOn => false
  | .debug _ => false

/-- The pseudo-command `read_both` (R86). -/
def readBoth : List Instr := [.readTemperature, .readHumidity]

/-! ## The host's numbering of an instruction's bits -/

/-- Bytes of the longest instruction, CONSTRUCT: code, pin of the default width, cpu. -/
def maxBytes : Nat := 9

/-- The bytes of an instruction whose bits are `w`, bit 0 the least significant of the first byte; the bits
above `nbits` are 0. -/
def layWord (nbits w : Nat) : List Byte :=
  (List.range maxBytes).map fun k => BitVec.ofNat 8 ((w % 2 ^ nbits) / 256 ^ k)

/-- The instruction the decoder reads from an instruction whose bits are `w`. -/
def decodeTableWord (nbits w : Nat) : Option Instr :=
  match decode defaultPinBytes (layWord nbits w) with
  | .ok (i, _) => some i
  | .error _ => none

end Sys2Proof
end

