-- ==== Sys2Proof/Machine/Params.lean ====
section
/-! DEFINITION. The default parameter values of spec/00_scope.md R6, and the model's for a pin's bytes (log 2). -/

namespace Sys2Proof.Machine

/-- The values R6 states: MS_BITS 32, COUNT_BITS 32, TIMEOUT_US 1000, MIN_INTERVAL_MS 2000, IDLE_HIGH_MS 10, WAKE_LOW_MS 20,
END_HIGH_US 40, SETTLE_US 10, RELEASE_MODE INPUT_PULLUP, DEBUG_ENABLED false. The bytes of a pin are the
model's choice (log 2). -/
def defaultConfig : Config where
  pinBytes := defaultPinBytes
  msBits := 32
  countBits := 32
  timeoutUs := 1000
  minIntervalMs := 2000
  idleHighMs := 10
  wakeLowMs := 20
  endHighUs := 40
  settleUs := 10
  releaseMode := .inputPullup
  debugEnabled := false

end Sys2Proof.Machine
end

