-- ==== Sys2Proof/Machine/State.lean ====
section
/-! DEFINITION. The engine's state as spec/10_state.md R20 lists it, the model's own inputs and records beside it (R34), the state right after reset (R400), and the reasons a step can stop. -/

namespace Sys2Proof.Machine

/-- Lifecycle stage `S.life` (R20). -/
inductive Life where
  | unbuilt
  | built
  | ready
  deriving DecidableEq, Repr

/-- The phase register `S.phase`, the engine's sequencing state (R28); the codes 0x00 to 0x16 are
`Phase.code` of Machine/Phases.lean, in this order. -/
inductive Phase where
  | idle
  | runAvail
  | runStamp
  | stIdleHigh
  | stIdleWait
  | stOutput
  | stWakeLow
  | stWakeWait
  | stEndHigh
  | stEndWait
  | stRelease
  | stSettle
  | ackLow
  | ackHigh
  | capMask
  | capture
  | capUnmask
  | decode
  | checksum
  | failReport
  | finish
  | availQuery
  | initMode
  deriving DecidableEq, Repr

/-- `S.cmd`: the read command that started the run (R20, R31). -/
inductive ReadCommand where
  | readTemperature
  | readHumidity
  deriving DecidableEq, Repr

/-- Outcome of a protocol run (R301). -/
inductive OutcomeCode where
  | ok
  | startFail
  | captureTimeout
  | checksumFail
  | cached
  deriving DecidableEq, Repr

/-- The five payload bytes in wire order (R25, R79): humidity high, humidity low, temperature high,
temperature low, checksum. -/
abbrev Payload := Vector Byte 5

/-- The 80 captured pulse widths (R27), counts of COUNT_BITS bits (R83; log 9). -/
abbrev Widths := Vector Nat 80

/-- An event of the trace (R9, R87): a host request with its answer, or the model-level RUN_END (R301). -/
inductive Event where
  | setMode (pin : PinId) (mode : Mode)
  | write (pin : PinId) (level : Level)
  | read (pin : PinId) (answer : Level)
  | nowMs (answer : Nat)
  | delayMs (n : Word32)
  | delayUs (n : Word32)
  | preemptOff
  | preemptOn
  | debug (code : Byte)
  | runEnd (outcome : OutcomeCode)
  deriving DecidableEq, Repr

/-- A response on the command interface (R76): AVAILABLE's bit or a read command's word. -/
inductive Response where
  | bit (value : Bool)
  | word (value : Word16)
  deriving DecidableEq, Repr

/-- The engine's state `S` (R20), then what is the model's own (R34; logs 3, 8, 10, 11, 15). The elements R20
gives a width are numbers below the parameter's power of 2 (`State.WidthInv` of Safety.lean; log 9). -/
structure State where
  /-- `S.life`. -/
  life : Life
  /-- `S.pin` (R21). -/
  pin : PinId
  /-- `S.maxCycles` (R22). -/
  maxCycles : Nat
  /-- `S.lastTs` (R23). -/
  lastTs : Nat
  /-- `S.valid` (R24). -/
  valid : Bool
  /-- `S.payload` (R25). -/
  payload : Payload
  /-- `S.pw` (R27). -/
  pw : Widths
  /-- `S.phase` (R28). -/
  phase : Phase
  /-- `S.count` (R29). -/
  count : Nat
  /-- `S.idx` (R30). -/
  idx : Fin 80
  /-- `S.cmd` (R31). -/
  cmd : ReadCommand
  /-- `S.outcome` (R301). -/
  outcome : OutcomeCode
  /-- `S.masked` (R32). -/
  masked : Bool
  /-- `S.refused` (R11). -/
  refused : Bool
  /-- The parameters of R6; no instruction writes them (log 8). -/
  cfg : Config
  /-- The caller's commands not yet taken, as bytes (R34; log 10). -/
  calls : List Byte
  /-- `none`: the caller waits for each command (R412). `some n`: a caller in a preemptive context (R65)
  lets `n` more steps outside IDLE pass and then issues its next command (log 11). -/
  reentry : Option Nat
  /-- The host's coming answers to READ (R233; log 3). -/
  readAnswers : List Level
  /-- The host's coming answers to NOW_MS (R234; log 3). -/
  clockAnswers : List Nat
  /-- How many free values have been used (log 3). -/
  draws : Nat
  /-- The event trace, oldest first (R9; log 15). -/
  trace : List Event
  /-- The responses given, oldest first (R76; log 15). -/
  responses : List Response
  deriving DecidableEq, Repr

/-- Faults: none (R311: "The engine's model has no fault outcome"). Nothing raises one; safe. -/
inductive Fault where
  deriving DecidableEq, Repr

/-- Why the model gives no next state. -/
inductive Refusal where
  /-- Raised by exec for an instruction without a meaning (none is left); safe. -/
  | notModelled (mnemonic : String)
  /-- Raised by every meaning and every step of a state with `S.refused` true (R11: "marks the whole model
  state refused for good"; log 6); safe. -/
  | stateRefused
  /-- Raised by SET_MODE with the reserved mode code 0b11 (R71), which no decoded instruction and no phase
  of the engine carries (log 18); safe. -/
  | reservedMode
  deriving DecidableEq, Repr

/-- Right after reset (R400): UNBUILT and not refused; "nothing else holds a value".
DESIGN CHOICE (log 5), unsafe: every element without a value is zero, false, empty or its type's first
name; phase IDLE is the entry point (R58). The parameters are R6's defaults. -/
def State.reset : State where
  life := .unbuilt
  pin := ⟨0⟩
  maxCycles := 0
  lastTs := 0
  valid := false
  payload := Vector.replicate 5 0
  pw := Vector.replicate 80 0
  phase := .idle
  count := 0
  idx := 0
  cmd := .readTemperature
  outcome := .ok
  masked := false
  refused := false
  cfg := defaultConfig
  calls := []
  reentry := none
  readAnswers := []
  clockAnswers := []
  draws := 0
  trace := []
  responses := []

end Sys2Proof.Machine
end

