-- ==== Sys2Proof/Machine/Flags.lean ====
section
/-! DEFINITION. The conditions the engine tests: interval elapsed (R108), lifecycle admission (R109), pulse result (R210), bit value (R175), capture timeout (R174), checksum (R190). -/

namespace Sys2Proof.Machine

/-- `(t - last) mod 2^MS_BITS` (R101, R108). -/
def elapsed (msBits t last : Nat) : Nat := (t + (2 ^ msBits - last % 2 ^ msBits)) % 2 ^ msBits

/-- `Avail(t, last)` (R108): at least MIN_INTERVAL_MS by unsigned wrapping subtraction. -/
def avail (cfg : Config) (t last : Nat) : Bool := cfg.minIntervalMs ≤ elapsed cfg.msBits t last

/-- CONSTRUCT is admitted (R109). DEDUCED (log 14), safe: the rule's table asks for the stage alone, since
before CONSTRUCT the phase holds no value (R400). -/
def admitsConstruct (s : State) : Bool := s.life = .unbuilt

/-- INITIALIZE is admitted (R109). -/
def admitsInit (s : State) : Bool := (s.life = .built || s.life = .ready) && s.phase = .idle

/-- AVAILABLE and the read commands are admitted (R109). -/
def admitsQuery (s : State) : Bool := s.life = .ready && s.phase = .idle

/-- One poll of `Pulse(level)` that read `answer` (R210): the width or the timeout sentinel 0 when the Pulse
returns, none when it polls again. -/
def pollResult (level answer : Level) (count maxCycles : Nat) : Option Nat :=
  if answer ≠ level then some count
  else if maxCycles ≤ count then some 0
  else none

/-- `Level(j)` (R173): LOW for even j, HIGH for odd j. -/
def levelOf (j : Fin 80) : Level := if j.val % 2 = 0 then .low else .high

/-- The low-phase width of data bit b (R173). -/
def lowWidth (pw : Widths) (b : Fin 40) : Nat := pw[2 * b.val]

/-- The high-phase width of data bit b (R173). -/
def highWidth (pw : Widths) (b : Fin 40) : Nat := pw[2 * b.val + 1]

/-- Some width of some pair is the timeout sentinel (R174). -/
def captureTimedOut (pw : Widths) : Bool :=
  (List.finRange 40).any fun b => lowWidth pw b = 0 || highWidth pw b = 0

/-- Data bit b (R175): the high phase is strictly longer. -/
def dataBit (pw : Widths) (b : Fin 40) : Bool := lowWidth pw b < highWidth pw b

/-- The checksum of four data bytes (R190): the exact sum, then modulo 256. -/
def checksumOf (b0 b1 b2 b3 : Byte) : Byte :=
  BitVec.ofNat 8 (b0.toNat + b1.toNat + b2.toNat + b3.toNat)

/-- The payload passes the checksum validator (R190). -/
def checksumOk (p : Payload) : Bool := p[4] = checksumOf p[0] p[1] p[2] p[3]

end Sys2Proof.Machine
end

