-- ==== Sys2Proof/Machine/Operands.lean ====
section
/-! DEFINITION. Operands and results as values: CONSTRUCT's ceiling (R75, R100), outcome codes (R301), command codes (R73), the packing of bits into payload bytes (R176) and the two value decoders (R106, R107). -/

namespace Sys2Proof.Machine

/-- `m := TIMEOUT_US * cpu`, an exact integer product (R100). -/
def ceiling (timeoutUs : Nat) (cpu : Word32) : Nat := timeoutUs * cpu.toNat

/-- The product fits `S.maxCycles` (R100: refused when `m >= 2^32`, which is 2^COUNT_BITS; log 9). -/
def ceilingFits (cfg : Config) (cpu : Word32) : Bool := ceiling cfg.timeoutUs cpu < 2 ^ cfg.countBits

/-- Outcome codes (R301). -/
def OutcomeCode.code : OutcomeCode → Byte
  | .ok => 0
  | .startFail => 1
  | .captureTimeout => 2
  | .checksumFail => 3
  | .cached => 4

/-- The outcome of a code; 5 to 255 are none (R301). -/
def OutcomeCode.ofCode (c : Byte) : Option OutcomeCode :=
  if c = 0 then some .ok
  else if c = 1 then some .startFail
  else if c = 2 then some .captureTimeout
  else if c = 3 then some .checksumFail
  else if c = 4 then some .cached
  else none

/-- The tag of an event in the trace: its request's code (R77), or 0xF0 for RUN_END (R78, R301). -/
def Event.tag : Event → Byte
  | .setMode _ _ => 0x80
  | .write _ _ => 0x81
  | .read _ _ => 0x82
  | .nowMs _ => 0x83
  | .delayMs _ => 0x84
  | .delayUs _ => 0x85
  | .preemptOff => 0x86
  | .preemptOn => 0x87
  | .debug _ => 0x88
  | .runEnd _ => 0xF0

/-- The instruction `S.cmd` stands for (R31, R73). -/
def ReadCommand.instr : ReadCommand → Instr
  | .readTemperature => .readTemperature
  | .readHumidity => .readHumidity

/-- A byte of eight bits, the first most significant (R176). -/
def packByte (bit : Fin 8 → Bool) : Byte :=
  (BitVec.ofBool (bit 0) ++ BitVec.ofBool (bit 1) ++ BitVec.ofBool (bit 2) ++ BitVec.ofBool (bit 3) ++
    BitVec.ofBool (bit 4) ++ BitVec.ofBool (bit 5) ++ BitVec.ofBool (bit 6) ++ BitVec.ofBool (bit 7)).setWidth 8

/-- Payload byte k of 40 data bits: bits 8k to 8k+7, bit 8k most significant (R174, R176). -/
def packedByte (bit : Fin 40 → Bool) (k : Fin 5) : Byte :=
  packByte fun i => bit ⟨8 * k.val + i.val, by omega⟩

/-- The five payload bytes of 40 data bits (R176, R177). -/
def packPayload (bit : Fin 40 → Bool) : Payload :=
  #v[packedByte bit 0, packedByte bit 1, packedByte bit 2, packedByte bit 3, packedByte bit 4]

/-- The 15-bit magnitude of a temperature, zero-extended to 16 bits (R81, R106). -/
def temperatureMagnitude (h l : Byte) : Word16 := (h.extractLsb' 0 7 ++ l).setWidth 16

/-- `DecodeTemperature(h, l)` (R106): sign and magnitude to two's complement. -/
def decodeTemperature (h l : Byte) : Word16 :=
  if h.getLsbD 7 then 0 - temperatureMagnitude h l else temperatureMagnitude h l

/-- `DecodeHumidity(h, l)` (R107). -/
def decodeHumidity (h l : Byte) : Word16 := (h ++ l).setWidth 16

/-- SENTINEL (R6, R82): the 16-bit word with every bit set. -/
def sentinel : Word16 := 0xFFFF

/-- The word a read command returns from the cached outcome (R103, R104). -/
def readResult (cmd : ReadCommand) (valid : Bool) (p : Payload) : Word16 :=
  if valid then
    match cmd with
    | .readTemperature => decodeTemperature p[2] p[3]
    | .readHumidity => decodeHumidity p[0] p[1]
  else sentinel

end Sys2Proof.Machine
end

