-- ==== Sys2Proof/Machine/Ops.lean ====
section
/-! DEFINITION. The named operations over the engine's state: events, responses, refusals, the host's answers, the failure entry of a run and the return from it (R9, R76, R109, R233 to R235, R308, R309). -/

namespace Sys2Proof.Machine

/-- What exec and step answer. -/
abbrev Answer := Host.Outcome State Fault Refusal

/-- The machine goes on to `t`, unless `s` is refused for good (R11; log 6). -/
def live (s t : State) : Answer := if s.refused then .refused .stateRefused else .next t

/-- A refusal (R109): `S.refused <- true`, no state change, no host request (log 6). -/
def State.refuse (s : State) : State := { s with refused := true }

/-- The next phase (R28). -/
def State.goto (p : Phase) (s : State) : State := { s with phase := p }

/-- Appends an event to the trace (R9). -/
def State.emit (e : Event) (s : State) : State := { s with trace := s.trace ++ [e] }

/-- Gives a response on the command interface (R76). -/
def State.respond (r : Response) (s : State) : State := { s with responses := s.responses ++ [r] }

/-- One step outside IDLE passes for a caller that does not wait (log 11). -/
def State.tick (s : State) : State := { s with reentry := s.reentry.map (· - 1) }

/-! ## The host's answers (R233, R234; log 3) -/

/-- The host's answer to the next READ: the next listed level, else a free value. -/
def State.nextLevel (s : State) : Level := s.readAnswers.head?.getD (Config.freeLevel s.draws)

/-- The answer to READ is used up. -/
def State.takeLevel (s : State) : State :=
  { s with
    readAnswers := s.readAnswers.tail
    draws := if s.readAnswers.isEmpty then s.draws + 1 else s.draws }

/-- The host's answer to the next NOW_MS: the next listed value, else a free value; the clock has MS_BITS
bits (R9). -/
def State.nextClock (s : State) : Nat :=
  s.clockAnswers.head?.getD (Config.freeClock s.draws) % 2 ^ s.cfg.msBits

/-- The answer to NOW_MS is used up. -/
def State.takeClock (s : State) : State :=
  { s with
    clockAnswers := s.clockAnswers.tail
    draws := if s.clockAnswers.isEmpty then s.draws + 1 else s.draws }

/-- `S.payload <- draw 5 bytes` (R130, R135; log 4). -/
def State.drawPayload (s : State) : State :=
  { s with
    payload := #v[Config.freePayloadByte s.draws 0, Config.freePayloadByte s.draws 1,
      Config.freePayloadByte s.draws 2, Config.freePayloadByte s.draws 3, Config.freePayloadByte s.draws 4]
    draws := s.draws + 1 }

/-! ## Failure entry and what follows it: the engine's exception mechanism (R300, R308, R309) -/

/-- Where a failed run goes: FAIL_REPORT when DEBUG_ENABLED, else FINISH (R28). -/
def failPhase (cfg : Config) : Phase := if cfg.debugEnabled then .failReport else .finish

/-- The failure leaves the payload a draw (R135, R308): START_FAIL and CAPTURE_TIMEOUT. -/
def drawsPayload : OutcomeCode → Bool
  | .startFail => true
  | .captureTimeout => true
  | .ok => false
  | .checksumFail => false
  | .cached => false

/-- `raise Fail(k)` (R10, R130, R308): records the outcome, makes the payload a draw where R135 says so,
and goes on to the report or the finish step. -/
def State.fail (k : OutcomeCode) (s : State) : State :=
  let s := { s with outcome := k }
  let s := if drawsPayload k then s.drawPayload else s
  s.goto (failPhase s.cfg)

/-- FINISH (R28, R130): `Observe(RUN_END(S.outcome))`, the read command responds (R103, R104), IDLE. It is
also the return from a failed run: the command that started it returns the sentinel (R309). -/
def State.finishRun (s : State) : State :=
  ((s.emit (.runEnd s.outcome)).respond (.word (readResult s.cmd s.valid s.payload))).goto .idle

/-! ## The result of a Pulse (R155, R170) -/

/-- The capture's next pulse (R28, R170): after the 80th the capture ends. DESIGN CHOICE (log 7), safe: `S.idx`
is then a free value. -/
def State.nextPulse (s : State) : State :=
  if h : s.idx.val + 1 < 80 then { s with idx := ⟨s.idx.val + 1, h⟩, count := 0 }
  else { s with idx := Config.freeIdx s.draws, draws := s.draws + 1, count := 0, phase := .capUnmask }

/-- The Pulse in progress returned `w`: the acknowledgment tests it against 0 (R155, R156), the capture
stores it (R170). -/
def State.pulseDone (w : Nat) (s : State) : State :=
  match s.phase with
  | .ackLow => if w = 0 then s.fail .startFail else { s with phase := .ackHigh, count := 0 }
  | .ackHigh => if w = 0 then s.fail .startFail else { s with phase := .capMask }
  | .capture => { s with pw := s.pw.set s.idx.val w s.idx.isLt }.nextPulse
  | _ => s

/-- The level the Pulse in progress awaits (R155, R173). -/
def State.awaited (s : State) : Level :=
  match s.phase with
  | .ackLow => .low
  | .ackHigh => .high
  | _ => levelOf s.idx

/-- One poll of the Pulse in progress read `answer` (R210). -/
def State.poll (answer : Level) (s : State) : State :=
  match pollResult s.awaited answer s.count s.maxCycles with
  | some w => s.pulseDone w
  | none => { s with count := s.count + 1 }

end Sys2Proof.Machine
end

