-- ==== Sys2Proof/Machine/Phases.lean ====
section
/-! DEFINITION. The phase table of spec/10_state.md R28: the phase codes and the host request each phase issues. What a phase does with the answer stands with the request's meaning in Requests.lean. -/

namespace Sys2Proof.Machine

/-- Phase codes (R28). -/
def Phase.code : Phase → Byte
  | .idle => 0x00
  | .runAvail => 0x01
  | .runStamp => 0x02
  | .stIdleHigh => 0x03
  | .stIdleWait => 0x04
  | .stOutput => 0x05
  | .stWakeLow => 0x06
  | .stWakeWait => 0x07
  | .stEndHigh => 0x08
  | .stEndWait => 0x09
  | .stRelease => 0x0A
  | .stSettle => 0x0B
  | .ackLow => 0x0C
  | .ackHigh => 0x0D
  | .capMask => 0x0E
  | .capture => 0x0F
  | .capUnmask => 0x10
  | .decode => 0x11
  | .checksum => 0x12
  | .failReport => 0x13
  | .finish => 0x14
  | .availQuery => 0x15
  | .initMode => 0x16

/-- The host request the phase issues (R28, column "the step"); none for IDLE and for the internal steps
DECODE, CHECKSUM and FINISH. Every pin operand is `S.pin` (R242), every constant a parameter (R75). -/
def phaseRequest (s : State) : Option Instr :=
  match s.phase with
  | .idle => none
  | .runAvail => some .nowMs
  | .runStamp => some .nowMs
  | .stIdleHigh => some (.write s.pin .high)
  | .stIdleWait => some (.delayMs s.cfg.idleHighMs)
  | .stOutput => some (.setMode s.pin (Mode.code .output))
  | .stWakeLow => some (.write s.pin .low)
  | .stWakeWait => some (.delayMs s.cfg.wakeLowMs)
  | .stEndHigh => some (.write s.pin .high)
  | .stEndWait => some (.delayUs s.cfg.endHighUs)
  | .stRelease => some (.setMode s.pin s.cfg.releaseMode.code)
  | .stSettle => some (.delayUs s.cfg.settleUs)
  | .ackLow => some (.read s.pin)
  | .ackHigh => some (.read s.pin)
  | .capMask => some .preemptOff
  | .capture => some (.read s.pin)
  | .capUnmask => some .preemptOn
  | .decode => none
  | .checksum => none
  | .failReport => some (.debug s.outcome.code)
  | .finish => none
  | .availQuery => some .nowMs
  | .initMode => some (.setMode s.pin (Mode.code .inputPullup))

/-- The rest of the phase's step, done when the request answered is the one the phase issues; any other
request leaves the engine as it is (log 12). -/
def completes (i : Instr) (rest : State → State) (s : State) : State :=
  if phaseRequest s = some i then rest s else s

end Sys2Proof.Machine
end

