-- ==== Sys2Proof/Machine/Commands.lean ====
section
/-! DEFINITION. The meanings of the caller's commands (spec/40_commands.md R100 to R104, R109). A command that is not admitted, or a CONSTRUCT whose ceiling does not fit, is refused (log 6). -/

namespace Sys2Proof.Machine

/-- A command (R109): its effect when it is admitted, a refusal when it is not. -/
def command (admitted : Bool) (effect : State → State) (s : State) : Answer :=
  live s (if admitted then effect s else s.refuse)

/-- CONSTRUCT (R100), completed in the IDLE step itself, with no host request (R28). -/
def execConstruct (pin : PinId) (cpu : Word32) (s : State) : Answer :=
  command (admitsConstruct s && ceilingFits s.cfg cpu)
    (fun s => { s with
      pin := pin
      maxCycles := ceiling s.cfg.timeoutUs cpu
      valid := false
      masked := false
      phase := .idle
      life := .built }) s

/-- INITIALIZE (R101): the step INIT_MODE does the rest (R28). -/
def execInitializeCmd (s : State) : Answer :=
  command (admitsInit s) (State.goto .initMode) s

/-- AVAILABLE (R102): the step AVAIL_QUERY does the rest (R28). -/
def execAvailable (s : State) : Answer :=
  command (admitsQuery s) (State.goto .availQuery) s

/-- READ_TEMPERATURE (R103): records the command and starts the run (R130). -/
def execReadTemperature (s : State) : Answer :=
  command (admitsQuery s) (fun s => { s with cmd := .readTemperature, phase := .runAvail }) s

/-- READ_HUMIDITY (R104): records the command and starts the run (R130). -/
def execReadHumidity (s : State) : Answer :=
  command (admitsQuery s) (fun s => { s with cmd := .readHumidity, phase := .runAvail }) s

end Sys2Proof.Machine
end

