-- ==== Sys2Proof/Machine/Requests.lean ====
section
/-! DEFINITION. The meanings of the host requests (spec/46_host_requests.md R231 to R239): the request is issued and appended to the trace (R9), the host answers it at once (R230, R241), and, where it is the request of the phase the engine is in, the rest of that phase's step is done (R28; log 12). -/

namespace Sys2Proof.Machine

/-- After the phase's SET_MODE (R28): the start sequence goes on; INIT_MODE primes the timestamp (R101). -/
def State.afterSetMode (s : State) : State :=
  match s.phase with
  | .stOutput => s.goto .stWakeLow
  | .stRelease => s.goto .stSettle
  | .initMode => { s with lastTs := elapsed s.cfg.msBits 0 s.cfg.minIntervalMs, life := .ready, phase := .idle }
  | _ => s

/-- After the phase's WRITE (R28). -/
def State.afterWrite (s : State) : State :=
  match s.phase with
  | .stIdleHigh => s.goto .stIdleWait
  | .stWakeLow => s.goto .stWakeWait
  | .stEndHigh => s.goto .stEndWait
  | _ => s

/-- After the phase's NOW_MS answered `t` (R28): the availability test (R108, R130), the stamp (R132,
R133), or AVAILABLE's response (R102). -/
def State.afterNowMs (t : Nat) (s : State) : State :=
  match s.phase with
  | .runAvail =>
    if avail s.cfg t s.lastTs then s.goto .runStamp
    else { s with outcome := .cached, phase := .finish }
  | .runStamp => { s with lastTs := t, valid := false, phase := .stIdleHigh }
  | .availQuery => (s.respond (.bit (avail s.cfg t s.lastTs))).goto .idle
  | _ => s

/-- After the phase's DELAY_MS (R28). -/
def State.afterDelayMs (s : State) : State :=
  match s.phase with
  | .stIdleWait => s.goto .stOutput
  | .stWakeWait => s.goto .stEndHigh
  | _ => s

/-- After the phase's DELAY_US (R28). -/
def State.afterDelayUs (s : State) : State :=
  match s.phase with
  | .stEndWait => s.goto .stRelease
  | .stSettle => { s with count := 0, phase := .ackLow }
  | _ => s

/-- SET_MODE (R231). The reserved mode code is refused (R71; log 18). -/
def execSetMode (pin : PinId) (mode : BitVec 2) (s : State) : Answer :=
  match Mode.ofCode mode with
  | some m => live s (completes (.setMode pin mode) State.afterSetMode (s.emit (.setMode pin m)))
  | none => if s.refused then .refused .stateRefused else .refused .reservedMode

/-- WRITE (R232). -/
def execWrite (pin : PinId) (level : Level) (s : State) : Answer :=
  live s (completes (.write pin level) State.afterWrite (s.emit (.write pin level)))

/-- READ (R233): the answer is the host's; the phase's Pulse takes it as one poll (R210). -/
def execRead (pin : PinId) (s : State) : Answer :=
  live s (completes (.read pin) (State.poll s.nextLevel) (s.takeLevel.emit (.read pin s.nextLevel)))

/-- NOW_MS (R234): the answer is the host's. -/
def execNowMs (s : State) : Answer :=
  live s (completes .nowMs (State.afterNowMs s.nextClock) (s.takeClock.emit (.nowMs s.nextClock)))

/-- DELAY_MS (R235): an event with its operand and no duration (log 17). -/
def execDelayMs (n : Word32) (s : State) : Answer :=
  live s (completes (.delayMs n) State.afterDelayMs (s.emit (.delayMs n)))

/-- DELAY_US (R236): an event with its operand and no duration (log 17). -/
def execDelayUs (n : Word32) (s : State) : Answer :=
  live s (completes (.delayUs n) State.afterDelayUs (s.emit (.delayUs n)))

/-- PREEMPT_OFF (R237): `S.masked` records it (R20, R32; log 12); CAP_MASK starts the capture (R170). -/
def execPreemptOff (s : State) : Answer :=
  live s (completes .preemptOff (fun s => { s with idx := 0, count := 0, phase := .capture })
    { s.emit .preemptOff with masked := true })

/-- PREEMPT_ON (R238): `S.masked` records it (R20, R32; log 12); CAP_UNMASK goes on to the decoder (R170). -/
def execPreemptOn (s : State) : Answer :=
  live s (completes .preemptOn (State.goto .decode) { s.emit .preemptOn with masked := false })

/-- DEBUG (R239): no engine state depends on it; FAIL_REPORT goes on to FINISH (R28). -/
def execDebug (code : Byte) (s : State) : Answer :=
  live s (completes (.debug code) (State.goto .finish) (s.emit (.debug code)))

end Sys2Proof.Machine
end

