-- ==== Sys2Proof/Machine/Dispatch.lean ====
section
/-! DEFINITION. One arm per instruction. -/

namespace Sys2Proof.Machine

def exec (i : Instr) (s : State) : Host.Outcome State Fault Refusal :=
  match i with
  | .construct pin cpu => Sys2Proof.Machine.execConstruct pin cpu s
  | .initializeCmd => Sys2Proof.Machine.execInitializeCmd s
  | .available => Sys2Proof.Machine.execAvailable s
  | .readTemperature => Sys2Proof.Machine.execReadTemperature s
  | .readHumidity => Sys2Proof.Machine.execReadHumidity s
  | .setMode pin mode => Sys2Proof.Machine.execSetMode pin mode s
  | .write pin level => Sys2Proof.Machine.execWrite pin level s
  | .read pin => Sys2Proof.Machine.execRead pin s
  | .nowMs => Sys2Proof.Machine.execNowMs s
  | .delayMs n => Sys2Proof.Machine.execDelayMs n s
  | .delayUs n => Sys2Proof.Machine.execDelayUs n s
  | .preemptOff => Sys2Proof.Machine.execPreemptOff s
  | .preemptOn => Sys2Proof.Machine.execPreemptOn s
  | .debug code => Sys2Proof.Machine.execDebug code s

end Sys2Proof.Machine
end

