-- ==== Sys2Proof/Machine/Fetch.lean ====
section
/-! DEFINITION. What the engine does next: takes a command from the caller (R57, R109), issues the request its phase calls for, or does an internal step (R28). Also how one instruction is placed so that the very next step runs it (log 13). -/

namespace Sys2Proof.Machine

/-- What the next step executes. -/
inductive Fetched where
  /-- A command of the caller, and the bytes after it. -/
  | command (i : Instr) (rest : List Byte)
  /-- An opcode that selects no command (R74). -/
  | unassigned
  /-- The phase's host request (R28). -/
  | request (i : Instr)
  /-- An internal step, or in IDLE no command yet. -/
  | internal
  deriving DecidableEq, Repr

/-- A command is taken now: in IDLE (R28), or where a caller that does not wait issues one (R65, R409;
log 11). -/
def State.listens (s : State) : Bool := s.phase = .idle || s.reentry = some 0

/-- What the phase does when no command is taken (R28). -/
def phaseWork (s : State) : Fetched :=
  match phaseRequest s with
  | some i => .request i
  | none => .internal

/-- What the next step executes. A command whose bytes are not all there has not been issued (log 10). -/
def fetch (s : State) : Fetched :=
  if s.listens then
    match decodeCommand s.cfg.pinBytes s.calls with
    | .ok (i, rest) => .command i rest
    | .error .truncated => phaseWork s
    | .error _ => .unassigned
  else phaseWork s

/-- The state in which the phase's request is `i` (log 13): the phase that issues it, and the element or
parameter its operand comes from. A caller that does not wait is set to wait. -/
def State.placeRequest (i : Instr) (s : State) : State :=
  match i with
  | .setMode pin mode =>
    { s with phase := .stRelease, pin := pin, reentry := none
             cfg := { s.cfg with releaseMode := (Mode.ofCode mode).getD .input } }
  | .write pin .low => { s with phase := .stWakeLow, pin := pin, reentry := none }
  | .write pin .high => { s with phase := .stEndHigh, pin := pin, reentry := none }
  | .read pin => { s with phase := .ackLow, pin := pin, reentry := none }
  | .nowMs => { s with phase := .runAvail, reentry := none }
  | .delayMs n => { s with phase := .stIdleWait, reentry := none, cfg := { s.cfg with idleHighMs := n } }
  | .delayUs n => { s with phase := .stEndWait, reentry := none, cfg := { s.cfg with endHighUs := n } }
  | .preemptOff => { s with phase := .capMask, reentry := none }
  | .preemptOn => { s with phase := .capUnmask, reentry := none }
  | .debug code =>
    { s with phase := .failReport, reentry := none, outcome := (OutcomeCode.ofCode code).getD .ok }
  | .construct _ _ => s
  | .initializeCmd => s
  | .available => s
  | .readTemperature => s
  | .readHumidity => s

/-- The state in which the next step runs `i`: a command is the first the caller issues, at IDLE; a host
request is the one the phase calls for (log 13). -/
def State.placeInstr (i : Instr) (s : State) : State :=
  if i.isCommand then { s with phase := .idle, calls := encode s.cfg.pinBytes i ++ s.calls } else s.placeRequest i

/-- The instruction of the bits `w` placed so that the next step runs it; bits that are no instruction are
given to the command interface as they stand (log 13). The bits are read with the default width of a pin, so
the state takes that width (log 2). -/
def State.placeWord (s : State) (nbits w : Nat) : State :=
  match decodeTableWord nbits w with
  | some i => State.placeInstr i { s with cfg := { s.cfg with pinBytes := defaultPinBytes } }
  | none => { s with phase := .idle, calls := layWord nbits w ++ s.calls }

end Sys2Proof.Machine
end

