-- ==== Sys2Proof/Machine/Internal.lean ====
section
/-! DEFINITION. The internal steps of a run, which issue no host request: the bit decoder (R174 to R177), the checksum validator (R190 to R192) and the finish step (R130). -/

namespace Sys2Proof.Machine

/-- DECODE (R174): CAPTURE_TIMEOUT when a width is 0, else the five bytes are written in one step (R177). -/
def State.decodeStep (s : State) : State :=
  if captureTimedOut s.pw then s.fail .captureTimeout
  else { s with payload := packPayload (dataBit s.pw), phase := .checksum }

/-- CHECKSUM (R190): the one step that sets `S.valid` (R192), else CHECKSUM_FAIL, which keeps the payload
(R191). -/
def State.checksumStep (s : State) : State :=
  if checksumOk s.payload then { s with valid := true, outcome := .ok, phase := .finish }
  else s.fail .checksumFail

/-- The step of a phase that issues no host request (R28). -/
def State.internalStep (s : State) : State :=
  match s.phase with
  | .decode => s.decodeStep
  | .checksum => s.checksumStep
  | .finish => s.finishRun
  | _ => s

end Sys2Proof.Machine
end

