-- ==== Sys2Proof/Machine/Cycle.lean ====
section
/-! DEFINITION. One step of the engine (R28): a command, a host request or an internal computation. -/

namespace Sys2Proof.Machine

/-- One step. A state refused for good takes none (R11; log 6). In IDLE with no command the engine idles,
keeping all its state (R317). -/
def cycle (s : State) : Host.Outcome State Fault Refusal :=
  if s.refused then .refused .stateRefused
  else
    match fetch s with
    | .command i rest => exec i { s with calls := rest }
    | .unassigned => .next s.refuse
    | .request i => exec i s.tick
    | .internal => if s.phase = .idle then .next s else .next s.tick.internalStep

end Sys2Proof.Machine
end

