-- ==== Sys2Proof/Machine/Step.lean ====
section
/-! DEFINITION. The step of the machine and the placing of one instruction; both only call Machine/Cycle.lean and Machine/Fetch.lean. -/

namespace Sys2Proof.Machine

/-- One step of the engine (R28). -/
def step : State → Host.Outcome State Fault Refusal := fun s => cycle s

/-- `s` with the instruction of the bits `w` placed where the next step takes it from (log 13). -/
def State.withFetchWord (s : State) (nbits w : Nat) : State := s.placeWord nbits w

end Sys2Proof.Machine
end

