-- ==== Sys2Proof/Safety.lean ====
section
/-! DEFINITION. What a safe state and a safe run are, in the terms the statements use: the invariants of the engine's state (R20, R26, R29, R32, R133, R215, R301), the order of the events in a trace (R172, R242), runs, and the poll scripts of spec/95_test_vectors.md. -/

namespace Sys2Proof.Machine

/-! ## Phases by kind -/

/-- The phases of a Pulse (R210: 0x0C, 0x0D, 0x0F). -/
def Phase.polls : Phase → Bool
  | .ackLow => true
  | .ackHigh => true
  | .capture => true
  | _ => false

/-- The phases between the stamp step and the end of the run's last check, where R133 keeps `S.valid`
false. -/
def Phase.afterStamp : Phase → Bool
  | .stIdleHigh => true
  | .stIdleWait => true
  | .stOutput => true
  | .stWakeLow => true
  | .stWakeWait => true
  | .stEndHigh => true
  | .stEndWait => true
  | .stRelease => true
  | .stSettle => true
  | .ackLow => true
  | .ackHigh => true
  | .capMask => true
  | .capture => true
  | .capUnmask => true
  | .decode => true
  | .checksum => true
  | .failReport => true
  | _ => false

/-- A failure outcome (R302 to R304). -/
def OutcomeCode.failed : OutcomeCode → Bool
  | .startFail => true
  | .captureTimeout => true
  | .checksumFail => true
  | .ok => false
  | .cached => false

/-! ## The invariant -/

/-- The invariant of the engine's state:
the poll counter stays within the ceiling (R29, R215); `S.masked` is true exactly in CAPTURE and
CAP_UNMASK (R32); outside IDLE the stage is READY, but for INIT_MODE, which a BUILT engine enters too
(R109); a valid payload passes the checksum (R26); from the stamp to the end of the run `S.valid` is false
(R133); FAIL_REPORT holds a failure and is entered only with DEBUG_ENABLED (R28); at FINISH `S.valid` is as
R301 says for the outcome. -/
abbrev State.Inv (s : State) : Prop :=
  (s.phase.polls = true → s.count ≤ s.maxCycles) ∧
  (s.masked = true ↔ s.phase = .capture ∨ s.phase = .capUnmask) ∧
  (s.phase ≠ .idle → s.life = .ready ∨ (s.life = .built ∧ s.phase = .initMode)) ∧
  (s.valid = true → checksumOk s.payload = true) ∧
  (s.phase.afterStamp = true → s.valid = false) ∧
  (s.phase = .failReport → s.outcome.failed = true ∧ s.cfg.debugEnabled = true) ∧
  (s.phase = .finish → s.outcome = .ok → s.valid = true) ∧
  (s.phase = .finish → s.outcome.failed = true → s.valid = false)

/-- Every element whose width R6 leaves to a parameter keeps within it (R20, R22, R23, R27, R29, R83; logs 2, 9). -/
abbrev State.WidthInv (s : State) : Prop :=
  s.pin.fits s.cfg.pinBytes = true ∧ s.maxCycles < 2 ^ s.cfg.countBits ∧ s.count < 2 ^ s.cfg.countBits ∧
  s.lastTs < 2 ^ s.cfg.msBits ∧ ∀ w ∈ s.pw.toList, w < 2 ^ s.cfg.countBits

/-! ## The order of events -/

/-- Scans a trace for the preemption bracket (R172): `some b` when every PREEMPT_OFF and PREEMPT_ON
alternate and only polls stand between them, `b` telling whether the bracket is open at the end. -/
def bracketScan : Option Bool → Event → Option Bool
  | some false, .preemptOff => some true
  | some false, .preemptOn => none
  | some false, _ => some false
  | some true, .read _ _ => some true
  | some true, .preemptOn => some false
  | some true, _ => none
  | none, _ => none

/-- Whether the preemption bracket is open at the end of a trace that keeps R172. -/
def bracketOf (trace : List Event) : Option Bool := trace.foldl bracketScan (some false)

/-- The trace keeps the bracket, and `S.masked` says whether it is open (R32, R172); the phases and the stage
are tied to it as in `State.Inv`. -/
abbrev State.BracketInv (s : State) : Prop :=
  bracketOf s.trace = some s.masked ∧
  (s.masked = true ↔ s.phase = .capture ∨ s.phase = .capUnmask) ∧
  (s.life = .unbuilt → s.phase = .idle)

/-- The pin an event names (R242). -/
def Event.pin? : Event → Option PinId
  | .setMode pin _ => some pin
  | .write pin _ => some pin
  | .read pin _ => some pin
  | _ => none

/-- Every SET_MODE, WRITE and READ of the trace names `S.pin` (R242); before CONSTRUCT there is no event and no
run. -/
abbrev State.PinInv (s : State) : Prop :=
  (∀ e ∈ s.trace, e.pin? = none ∨ e.pin? = some s.pin) ∧
  (s.life = .unbuilt → s.trace = [] ∧ s.phase = .idle)

/-- The event is RUN_END (R301), which is no host request (R78). -/
def Event.isRunEnd : Event → Bool
  | .runEnd _ => true
  | _ => false

/-! ## Runs -/

/-- No command is issued in the coming `n` steps outside IDLE: the caller waits (R57), or one that does not
wait lets `n` steps pass (log 11), or there is no whole command for it to issue (log 10). -/
abbrev State.quietFor (n : Nat) (s : State) : Prop :=
  s.reentry.all (n ≤ ·) = true ∨ decodeCommand s.cfg.pinBytes s.calls = .error .truncated

/-- `n` steps from `s` lead to `t`. -/
def Steps (n : Nat) (s t : State) : Prop := Sys2Proof.core.run n s = .next t

/-- A safe run of `n` steps: it neither faults nor stops, and refuses no input on the way. -/
def SafeRun (n : Nat) (s : State) : Prop := ∃ t : State, Steps n s t ∧ t.refused = false

/-- The steps a run can still take outside IDLE, its requests and internal steps together (R136, R137): the
requests of R136 and the three internal steps. -/
def runBound (s : State) : Nat := 17 + 82 * (s.maxCycles + 1)

/-! ## Poll scripts (95_test_vectors.md) -/

/-- `seg(L, w)`: w answers L and one answer !L. -/
def seg (l : Level) (w : Nat) : List Level := List.replicate w l ++ [l.flip]

/-- The poll script of the pulses j, j+1, … of a capture with the given widths. -/
def captureScript : Nat → List Nat → List Level
  | _, [] => []
  | j, w :: ws => seg (if j % 2 = 0 then .low else .high) w ++ captureScript (j + 1) ws

/-- The poll script of the pulses j, j+1, … of a capture with ceiling m: `some w` a pulse of width w, `none` a pulse that
times out after m + 1 polls (R212). -/
def pulseScript (m : Nat) : Nat → List (Option Nat) → List Level
  | _, [] => []
  | j, w :: ws =>
    let awaited := if j % 2 = 0 then .low else .high
    (match w with
      | some k => seg awaited k
      | none => List.replicate (m + 1) awaited) ++ pulseScript m (j + 1) ws

/-- Bit b of a payload in capture order (R176). -/
def payloadBit (p : Payload) (b : Fin 40) : Bool := p[b.val / 8].getLsbD (7 - b.val % 8)

/-- The 80 widths of a frame (95_test_vectors.md, Notation): low width `lo`, high width `h1` for a 1 bit and `h0`
for a 0 bit. -/
def frameWidths (p : Payload) (lo h0 h1 : Nat) : List Nat :=
  (List.finRange 40).flatMap fun b => [lo, if payloadBit p b then h1 else h0]

/-- The poll script of a frame: the acknowledgment of widths a and b, then the 80 pulses. -/
def frameScript (p : Payload) (a b lo h0 h1 : Nat) : List Level :=
  seg .low a ++ seg .high b ++ captureScript 0 (frameWidths p lo h0 h1)

end Sys2Proof.Machine
end

