-- ==== Sys2Proof/Certificates/Slice0/Obligations.lean ====
section
/-! DEFINITION. The statements for the provers: encodings, the step, the commands, the host requests, the internal steps, the value decoders, pulses, whole runs, and the invariants every step keeps. -/

open Sys2Proof Sys2Proof.Machine

/-! ## Encoding -/

/-- Decoding an encoded well-formed instruction gives it back, whatever bytes follow and however many bytes a pin takes
(30_encoding.md sections 2 and 3; the operand bytes are the model's choice, logs 1 and 2). -/
def Obligations.DecodeOfEncode : Prop :=
  ∀ (k : Nat) (i : Instr) (rest : List Byte), WellFormed k i → decode k (encode k i ++ rest) = .ok (i, rest)

/-- Every instruction has one encoding: what decodes is well formed and its bytes are its encoding (30_encoding.md
sections 2 and 3; logs 1 and 2). -/
def Obligations.EncodeOfDecode : Prop :=
  ∀ (k : Nat) (bs : List Byte) (i : Instr) (rest : List Byte),
    decode k bs = .ok (i, rest) → WellFormed k i ∧ bs = encode k i ++ rest

/-- Words written out from the code tables R73 and R77, operands as log 1 lays them out, decode to their
instructions. -/
def Obligations.TableWordsDecode : Prop :=
  decodeTableWord 72 0x000000100000000201 = some (.construct ⟨2⟩ 16) ∧
  decodeTableWord 8 0b00000010 = some .initializeCmd ∧
  decodeTableWord 8 0b00000011 = some .available ∧
  decodeTableWord 8 0b00000100 = some .readTemperature ∧
  decodeTableWord 8 0b00000101 = some .readHumidity ∧
  decodeTableWord 48 0x020000000580 = some (.setMode ⟨5⟩ 0b10) ∧
  decodeTableWord 48 0x010000000581 = some (.write ⟨5⟩ .high) ∧
  decodeTableWord 40 0x0000000582 = some (.read ⟨5⟩) ∧
  decodeTableWord 8 0b10000011 = some .nowMs ∧
  decodeTableWord 40 0x0000000A84 = some (.delayMs 10) ∧
  decodeTableWord 40 0x0000002885 = some (.delayUs 40) ∧
  decodeTableWord 8 0b10000110 = some .preemptOff ∧
  decodeTableWord 8 0b10000111 = some .preemptOn ∧
  decodeTableWord 16 0x0188 = some (.debug 1)

/-- R74: exactly 0x00 and 0x06 to 0xFF select no command; a command with such an opcode is refused: `S.refused`
is set and nothing else changes (R109; that the refusing step is a next state is log 6). -/
def Obligations.ReservedOpcodesAreRefused : Prop :=
  (∀ (k : Nat) (op : Byte) (rest : List Byte),
    decodeCommand k (op :: rest) = .error (.unassignedOpcode op) ↔ op = 0 ∨ 6 ≤ op.toNat) ∧
  (∀ (s : State) (op : Byte) (rest : List Byte),
    s.refused = false → s.phase = .idle ∨ s.reentry = some 0 → s.calls = op :: rest →
    op = 0 ∨ 6 ≤ op.toNat → step s = .next { s with refused := true })

/-- What a phase issues is a host request with no reserved operand code (R71, R78), naming `S.pin` where it names a
pin (R242), and its bytes decode to it on the platform interface, where `S.pin` fits the bytes of a pin (log 2). -/
def Obligations.PhaseRequestsAreWellFormed : Prop :=
  ∀ (s : State) (i : Instr), s.pin.fits s.cfg.pinBytes = true → phaseRequest s = some i →
    WellFormed s.cfg.pinBytes i ∧ decodeRequest s.cfg.pinBytes (encode s.cfg.pinBytes i) = .ok (i, []) ∧
    (∀ p m, i = .setMode p m → p = s.pin) ∧ (∀ p l, i = .write p l → p = s.pin) ∧
    (∀ p, i = .read p → p = s.pin)

/-! ## The step -/

/-- A step in IDLE, or one in which a caller that does not wait issues its next command (log 11), executes the command
the caller's bytes decode to, moved past its bytes. -/
def Obligations.StepTakesDecodedCommand : Prop :=
  ∀ (s : State) (i : Instr) (rest : List Byte),
    s.refused = false → s.phase = .idle ∨ s.reentry = some 0 →
    decodeCommand s.cfg.pinBytes s.calls = .ok (i, rest) →
    step s = exec i { s with calls := rest }

/-- Outside IDLE, with no command issued (logs 10 and 11: the caller waits or lets the step pass, or its command is not
whole yet), a step executes the host request of the phase (R28), one such step having passed for a caller that does not
wait. -/
def Obligations.StepIssuesPhaseRequest : Prop :=
  ∀ (s : State) (i : Instr),
    s.refused = false → s.phase ≠ .idle → s.quietFor 1 → phaseRequest s = some i →
    step s = exec i { s with reentry := s.reentry.map (· - 1) }

/-- R317: between commands the engine is idle in IDLE and keeps all its state; bytes that are no whole command yet are
none (log 10). -/
def Obligations.IdleKeepsAllState : Prop :=
  ∀ s : State, s.refused = false → s.phase = .idle →
    decodeCommand s.cfg.pinBytes s.calls = .error .truncated → step s = .next s

/-- R11, as log 6 models it: a refused state is refused for good, whatever is executed. -/
def Obligations.RefusedForGood : Prop :=
  ∀ s : State, s.refused = true →
    step s = .refused .stateRefused ∧ ∀ i : Instr, exec i s = .refused .stateRefused

/-- The step after placing a well-formed instruction executes that instruction (log 13): a command at IDLE, a host
request in the phase that issues it. -/
def Obligations.PlacedInstructionRunsNext : Prop :=
  ∀ (s : State) (i : Instr), s.refused = false → WellFormed s.cfg.pinBytes i →
    (i.isCommand = true → step (s.placeInstr i) = exec i { s with phase := .idle }) ∧
    (i.isCommand = false → step (s.placeInstr i) = exec i (s.placeInstr i))

/-- R60, R28: a step appends at most one event, after all earlier ones, and never removes one. -/
def Obligations.OneEventAtMostPerStep : Prop :=
  ∀ s t : State, step s = .next t → t.trace = s.trace ∨ ∃ e : Event, t.trace = s.trace ++ [e]

/-! ## The caller's commands -/

/-- R100: an admitted CONSTRUCT whose exact product fits COUNT_BITS (32 by default; log 9) sets up the engine and issues no
request. -/
def Obligations.ConstructSetsUpEngine : Prop :=
  ∀ (s : State) (pin : PinId) (cpu : Word32),
    s.refused = false → s.life = .unbuilt → s.cfg.timeoutUs * cpu.toNat < 2 ^ s.cfg.countBits →
    exec (.construct pin cpu) s = .next { s with
      pin := pin, maxCycles := s.cfg.timeoutUs * cpu.toNat, valid := false
      masked := false, phase := .idle, life := .built }

/-- R109, R100: a command that is not admitted, or a CONSTRUCT whose product does not fit, sets `S.refused` and changes
nothing else (that the refusing step is a next state is log 6; CONSTRUCT's admission is log 14). -/
def Obligations.CommandsRefusedUnlessAdmitted : Prop :=
  ∀ s : State, s.refused = false →
    (∀ (pin : PinId) (cpu : Word32),
      ¬ (s.life = .unbuilt ∧ s.cfg.timeoutUs * cpu.toNat < 2 ^ s.cfg.countBits) →
      exec (.construct pin cpu) s = .next { s with refused := true }) ∧
    (¬ ((s.life = .built ∨ s.life = .ready) ∧ s.phase = .idle) →
      exec .initializeCmd s = .next { s with refused := true }) ∧
    (¬ (s.life = .ready ∧ s.phase = .idle) →
      exec .available s = .next { s with refused := true } ∧
      exec .readTemperature s = .next { s with refused := true } ∧
      exec .readHumidity s = .next { s with refused := true })

/-- R28, R101 to R104: an admitted command other than CONSTRUCT starts its phase; a read command records itself in
`S.cmd`. -/
def Obligations.AdmittedCommandsStartTheirPhase : Prop :=
  ∀ s : State, s.refused = false → s.phase = .idle →
    (s.life = .built ∨ s.life = .ready → exec .initializeCmd s = .next { s with phase := .initMode }) ∧
    (s.life = .ready →
      exec .available s = .next { s with phase := .availQuery } ∧
      exec .readTemperature s = .next { s with cmd := .readTemperature, phase := .runAvail } ∧
      exec .readHumidity s = .next { s with cmd := .readHumidity, phase := .runAvail })

/-- R101: INITIALIZE issues SET_MODE with the pull-up mode, primes `S.lastTs` and makes the engine READY; `S.valid` and
`S.payload` keep their values. -/
def Obligations.InitializePrimesTimestamp : Prop :=
  ∀ (s : State) (rest : List Byte),
    s.refused = false → s.life = .built ∨ s.life = .ready → s.phase = .idle →
    s.calls = 0x02 :: rest → { s with calls := rest }.quietFor 1 →
    Steps 2 s { s with
      calls := rest, reentry := s.reentry.map (· - 1), life := .ready
      lastTs := elapsed s.cfg.msBits 0 s.cfg.minIntervalMs
      trace := s.trace ++ [.setMode s.pin .inputPullup] }

/-- R102: AVAILABLE issues one NOW_MS and responds with Avail; no engine state changes. -/
def Obligations.AvailableRespondsWithoutEffect : Prop :=
  ∀ (s : State) (rest : List Byte) (t : Nat) (ts : List Nat),
    s.refused = false → s.life = .ready → s.phase = .idle →
    s.calls = 0x03 :: rest → { s with calls := rest }.quietFor 1 →
    s.clockAnswers = t :: ts → t < 2 ^ s.cfg.msBits →
    Steps 2 s { s with
      calls := rest, reentry := s.reentry.map (· - 1), clockAnswers := ts, trace := s.trace ++ [.nowMs t]
      responses := s.responses ++ [.bit (avail s.cfg t s.lastTs)] }

/-- R131, R103, R104: within the minimum interval a read command issues one NOW_MS, leaves the cached outcome as it
was, and responds from it; a failed or absent outcome gives the sentinel. -/
def Obligations.ReadsServeCachedOutcome : Prop :=
  ∀ (s : State) (c : ReadCommand) (rest : List Byte) (t : Nat) (ts : List Nat),
    s.refused = false → s.life = .ready → s.phase = .idle →
    s.calls = encode s.cfg.pinBytes c.instr ++ rest → { s with calls := rest }.quietFor 2 →
    s.clockAnswers = t :: ts → t < 2 ^ s.cfg.msBits → avail s.cfg t s.lastTs = false →
    Steps 3 s { s with
      calls := rest, reentry := s.reentry.map (· - 2), clockAnswers := ts, cmd := c, outcome := .cached
      trace := s.trace ++ [.nowMs t, .runEnd .cached]
      responses := s.responses ++ [.word (if s.valid then
        (match c with
          | .readTemperature => decodeTemperature s.payload[2] s.payload[3]
          | .readHumidity => decodeHumidity s.payload[0] s.payload[1]) else 0xFFFF)] }

/-- R108: Avail is the elapsed time modulo 2^MS_BITS against the minimum interval. -/
def Obligations.AvailIsElapsedInterval : Prop :=
  (∀ b t last : Nat, (elapsed b t last : Int) = ((t : Int) - last) % 2 ^ b) ∧
  ∀ (c : Config) (t last : Nat),
    avail c t last = true ↔ (c.minIntervalMs : Int) ≤ ((t : Int) - last) % 2 ^ c.msBits

/-- R411, R101: after INITIALIZE exactly the last MIN_INTERVAL_MS values of the clock find the interval not elapsed; with
the defaults these are 0xFFFFF830 to 0xFFFFFFFF. -/
def Obligations.ClockWindowAfterInit : Prop :=
  (∀ (c : Config) (t : Nat), c.minIntervalMs ≤ 2 ^ c.msBits → t < 2 ^ c.msBits →
    (avail c t (elapsed c.msBits 0 c.minIntervalMs) = false ↔ 2 ^ c.msBits - c.minIntervalMs ≤ t)) ∧
  ∀ t : Nat, t < 2 ^ 32 → (avail defaultConfig t 0xFFFFF830 = false ↔ 0xFFFFF830 ≤ t)

/-! ## The host requests -/

/-- SET_MODE (R231) appends its event, and completes the step of the phase that issues it (R28, R101; log 12); nothing
else changes. -/
def Obligations.SetModeEffect : Prop :=
  ∀ (s : State) (pin : PinId) (m : Mode), s.refused = false →
    exec (.setMode pin m.code) s = .next
      (if s.phase = .stOutput ∧ pin = s.pin ∧ m = .output then
        { s with trace := s.trace ++ [.setMode pin m], phase := .stWakeLow }
      else if s.phase = .stRelease ∧ pin = s.pin ∧ m = s.cfg.releaseMode then
        { s with trace := s.trace ++ [.setMode pin m], phase := .stSettle }
      else if s.phase = .initMode ∧ pin = s.pin ∧ m = .inputPullup then
        { s with
          trace := s.trace ++ [.setMode pin m], phase := .idle, life := .ready
          lastTs := elapsed s.cfg.msBits 0 s.cfg.minIntervalMs }
      else { s with trace := s.trace ++ [.setMode pin m] })

/-- SET_MODE with the reserved mode code 0b11 (R71) is refused by name (log 18). -/
def Obligations.ReservedModeIsRefused : Prop :=
  ∀ (s : State) (pin : PinId), s.refused = false → exec (.setMode pin 0b11) s = .refused .reservedMode

/-- WRITE (R232) appends its event, and completes the step of the phase that issues it (R28; log 12); nothing else
changes. -/
def Obligations.WriteEffect : Prop :=
  ∀ (s : State) (pin : PinId) (l : Level), s.refused = false →
    exec (.write pin l) s = .next { s with
      trace := s.trace ++ [.write pin l]
      phase :=
        if pin = s.pin ∧ l = .high ∧ s.phase = .stIdleHigh then .stIdleWait
        else if pin = s.pin ∧ l = .low ∧ s.phase = .stWakeLow then .stWakeWait
        else if pin = s.pin ∧ l = .high ∧ s.phase = .stEndHigh then .stEndWait
        else s.phase }

/-- DELAY_MS and DELAY_US (R235, R236) append their event, and complete the step of the phase that issues them (R28; log
12); nothing else changes but `S.count`, which ST_SETTLE clears. -/
def Obligations.DelayEffect : Prop :=
  ∀ (s : State) (n : Word32), s.refused = false →
    exec (.delayMs n) s = .next { s with
      trace := s.trace ++ [.delayMs n]
      phase :=
        if s.phase = .stIdleWait ∧ n = s.cfg.idleHighMs then .stOutput
        else if s.phase = .stWakeWait ∧ n = s.cfg.wakeLowMs then .stEndHigh
        else s.phase } ∧
    exec (.delayUs n) s = .next { s with
      trace := s.trace ++ [.delayUs n]
      count := if s.phase = .stSettle ∧ n = s.cfg.settleUs then 0 else s.count
      phase :=
        if s.phase = .stEndWait ∧ n = s.cfg.endHighUs then .stRelease
        else if s.phase = .stSettle ∧ n = s.cfg.settleUs then .ackLow
        else s.phase }

/-- PREEMPT_OFF and PREEMPT_ON (R237, R238, R170): `S.masked` follows them (R32), CAP_MASK starts the capture at pulse 0
with a clear counter, CAP_UNMASK goes on to the decoder (log 12 for the other phases). -/
def Obligations.PreemptRequestsEffect : Prop :=
  ∀ s : State, s.refused = false →
    exec .preemptOff s = .next { s with
      trace := s.trace ++ [.preemptOff], masked := true
      idx := if s.phase = .capMask then 0 else s.idx
      count := if s.phase = .capMask then 0 else s.count
      phase := if s.phase = .capMask then .capture else s.phase } ∧
    exec .preemptOn s = .next { s with
      trace := s.trace ++ [.preemptOn], masked := false
      phase := if s.phase = .capUnmask then .decode else s.phase }

/-- DEBUG (R239): an event; no engine state depends on it but the phase, which goes from FAIL_REPORT to FINISH (R28). The
other phases and operands are log 12, and that a code above 4, which the engine never issues, runs too is log 18 (both
DEDUCED). -/
def Obligations.DebugEffect : Prop :=
  ∀ (s : State) (code : Byte), s.refused = false →
    exec (.debug code) s = .next { s with
      trace := s.trace ++ [.debug code]
      phase := if s.phase = .failReport ∧ code = s.outcome.code then .finish else s.phase }

/-- NOW_MS (R234) answered `t`: the availability test (R108, R130), the stamp and the preemptive clear (R132, R133), or
AVAILABLE's response (R102); in any other phase the event alone (log 12, DEDUCED). -/
def Obligations.NowMsEffect : Prop :=
  ∀ (s : State) (t : Nat) (ts : List Nat),
    s.refused = false → s.clockAnswers = t :: ts → t < 2 ^ s.cfg.msBits →
    exec .nowMs s = .next
      (let e := { s with clockAnswers := ts, trace := s.trace ++ [.nowMs t] }
      match s.phase with
      | .runAvail =>
        if avail s.cfg t s.lastTs then { e with phase := .runStamp }
        else { e with outcome := .cached, phase := .finish }
      | .runStamp => { e with lastTs := t, valid := false, phase := .stIdleHigh }
      | .availQuery => { e with responses := s.responses ++ [.bit (avail s.cfg t s.lastTs)], phase := .idle }
      | _ => e)

/-- R234 where no answer is listed (log 3): NOW_MS still completes, its answer is some clock value, and the same holds of
it: the availability test, the stamp, AVAILABLE's response (R102), and in any other phase the event alone (log 12, DEDUCED). -/
def Obligations.NowMsCompletesOnAnyAnswer : Prop :=
  ∀ s : State, s.refused = false → ∃ (t : Nat) (u : State), t < 2 ^ s.cfg.msBits ∧
    exec .nowMs s = .next u ∧
    u = { s with
      clockAnswers := s.clockAnswers.tail, draws := u.draws, trace := s.trace ++ [.nowMs t]
      lastTs := if s.phase = .runStamp then t else s.lastTs
      valid := if s.phase = .runStamp then false else s.valid
      outcome := if s.phase = .runAvail ∧ avail s.cfg t s.lastTs = false then .cached else s.outcome
      responses := if s.phase = .availQuery then s.responses ++ [.bit (avail s.cfg t s.lastTs)] else s.responses
      phase :=
        if s.phase = .runAvail then (if avail s.cfg t s.lastTs then .runStamp else .finish)
        else if s.phase = .runStamp then .stIdleHigh
        else if s.phase = .availQuery then .idle
        else s.phase }

/-- READ (R233) completes in every state with every answer, appends one event, and changes nothing but what a poll may
change (R155, R170, R210): life, pin, ceiling, timestamp, `S.valid`, `S.cmd`, `S.masked`, `S.refused`, parameters, the
caller's commands, clock answers and responses are as before, and in a phase that polls nothing all of the engine is (log 12, DEDUCED). -/
def Obligations.ReadCompletesAndFrames : Prop :=
  ∀ (s : State) (pin : PinId), s.refused = false → ∃ (l : Level) (t : State),
    exec (.read pin) s = .next t ∧ t.trace = s.trace ++ [.read pin l] ∧
    (∀ l' ls, s.readAnswers = l' :: ls → l = l' ∧ t.readAnswers = ls) ∧
    t.life = s.life ∧ t.pin = s.pin ∧ t.maxCycles = s.maxCycles ∧ t.lastTs = s.lastTs ∧ t.valid = s.valid ∧
    t.cmd = s.cmd ∧ t.masked = s.masked ∧ t.refused = s.refused ∧ t.cfg = s.cfg ∧ t.calls = s.calls ∧
    t.reentry = s.reentry ∧ t.clockAnswers = s.clockAnswers ∧ t.responses = s.responses ∧
    (s.phase ≠ .capture → t.pw = s.pw ∧ t.idx = s.idx) ∧
    (s.phase = .capture → t.payload = s.payload ∧ t.outcome = s.outcome) ∧
    (s.phase.polls = false ∨ pin ≠ s.pin →
      t.payload = s.payload ∧ t.pw = s.pw ∧ t.phase = s.phase ∧ t.count = s.count ∧ t.idx = s.idx ∧
      t.outcome = s.outcome)

/-- R210, R29: a poll that sees the awaited level below the ceiling adds 1 to `S.count` and nothing else; the Pulse goes
on. -/
def Obligations.PollCountsAwaitedLevel : Prop :=
  ∀ (s : State) (ls : List Level), s.refused = false → s.phase.polls = true →
    s.readAnswers = s.awaited :: ls → s.count < s.maxCycles →
    exec (.read s.pin) s = .next { s with
      readAnswers := ls, trace := s.trace ++ [.read s.pin s.awaited], count := s.count + 1 }

/-- R155, R156: an acknowledgment pulse of nonzero width goes on, LOW to HIGH and HIGH to the capture, whatever the width;
it is stored nowhere. -/
def Obligations.AckWidthGoesOn : Prop :=
  ∀ (s : State) (ls : List Level), s.refused = false → s.count ≠ 0 →
    (s.phase = .ackLow → s.readAnswers = .high :: ls →
      exec (.read s.pin) s = .next { s with
        readAnswers := ls, trace := s.trace ++ [.read s.pin .high], phase := .ackHigh, count := 0 }) ∧
    (s.phase = .ackHigh → s.readAnswers = .low :: ls →
      exec (.read s.pin) s = .next { s with
        readAnswers := ls, trace := s.trace ++ [.read s.pin .low], phase := .capMask })

/-- R302, R308, R155: an acknowledgment pulse that measures 0, gone at the first poll or at the ceiling, ends the run with
START_FAIL; the payload becomes a draw (R135, log 4), of which nothing is said, and everything else is as before. -/
def Obligations.AckZeroWidthIsStartFail : Prop :=
  ∀ (s : State) (l : Level) (ls : List Level), s.refused = false → s.phase = .ackLow ∨ s.phase = .ackHigh →
    s.readAnswers = l :: ls →
    (l ≠ s.awaited ∧ s.count = 0) ∨ (l = s.awaited ∧ s.maxCycles ≤ s.count) →
    ∃ t : State, exec (.read s.pin) s = .next t ∧
      t = { s with
        readAnswers := ls, trace := s.trace ++ [.read s.pin l], outcome := .startFail
        phase := if s.cfg.debugEnabled then .failReport else .finish
        payload := t.payload, draws := t.draws }

/-- R170, R171, R173: a capture pulse that returns stores its width, 0 included, in `S.pw[S.idx]` and clears the counter;
the 80th ends the capture, where `S.idx` is open (log 7). -/
def Obligations.CaptureStoresWidth : Prop :=
  ∀ (s : State) (l : Level) (ls : List Level), s.refused = false → s.phase = .capture →
    s.readAnswers = l :: ls →
    l ≠ s.awaited ∨ s.maxCycles ≤ s.count →
    ∃ t : State, exec (.read s.pin) s = .next t ∧
      t = { s with
        readAnswers := ls, trace := s.trace ++ [.read s.pin l], count := 0
        pw := s.pw.set s.idx.val (if l = s.awaited then 0 else s.count) s.idx.isLt
        phase := if s.idx.val = 79 then .capUnmask else .capture
        idx := t.idx, draws := t.draws } ∧
      (s.idx.val < 79 → t.idx.val = s.idx.val + 1 ∧ t.draws = s.draws)

/-! ## Start sequence and internal steps -/

/-- R150: exactly these nine requests, in this order, with no request between them; then the first acknowledgment poll is
due with a clear counter, and nothing else has changed. -/
def Obligations.StartSequenceIsNineRequests : Prop :=
  ∀ s : State, s.refused = false → s.phase = .stIdleHigh → s.quietFor 9 →
    Steps 9 s { s with
      phase := .ackLow, count := 0, reentry := s.reentry.map (· - 9)
      trace := s.trace ++ [
        .write s.pin .high, .delayMs s.cfg.idleHighMs, .setMode s.pin .output, .write s.pin .low,
        .delayMs s.cfg.wakeLowMs, .write s.pin .high, .delayUs s.cfg.endHighUs,
        .setMode s.pin s.cfg.releaseMode, .delayUs s.cfg.settleUs] }

/-- R175, R176: with no width 0, DECODE writes all five payload bytes in one step, bit b of the capture going to byte
b div 8 at position 7 - (b mod 8) and being 1 exactly when the high phase is strictly longer; nothing else changes but the
countdown of a caller that does not wait (log 11). -/
def Obligations.DecodePacksLongerHighs : Prop :=
  ∀ s : State, s.refused = false → s.phase = .decode → s.quietFor 1 →
    (∀ j : Fin 80, s.pw[j] ≠ 0) →
    ∃ t : State, step s = .next t ∧
      t = { s with phase := .checksum, payload := t.payload, reentry := s.reentry.map (· - 1) } ∧
      ∀ b : Fin 40, (t.payload[b.val / 8]).getLsbD (7 - b.val % 8) =
        decide (s.pw[2 * b.val] < s.pw[2 * b.val + 1])

/-- R303, R174: any width 0 ends the run with CAPTURE_TIMEOUT, whichever width it is; the payload becomes a draw (R135,
log 4), of which nothing is said, and no other element changes. -/
def Obligations.ZeroWidthIsCaptureTimeout : Prop :=
  ∀ (s : State) (j : Fin 80), s.refused = false → s.phase = .decode → s.quietFor 1 → s.pw[j] = 0 →
    ∃ t : State, step s = .next t ∧
      t = { s with
        outcome := .captureTimeout
        phase := if s.cfg.debugEnabled then .failReport else .finish
        payload := t.payload, draws := t.draws, reentry := s.reentry.map (· - 1) }

/-- R190, R191, R192: the checksum decides: byte 4 equal to the sum of bytes 0 to 3 modulo 256 sets `S.valid` with outcome
OK; a mismatch is CHECKSUM_FAIL and keeps the payload and `S.valid`. -/
def Obligations.ChecksumDecidesValidity : Prop :=
  ∀ s : State, s.refused = false → s.phase = .checksum → s.quietFor 1 →
    step s = .next
      (if s.payload[4].toNat =
          (s.payload[0].toNat + s.payload[1].toNat + s.payload[2].toNat + s.payload[3].toNat) % 256 then
        { s with valid := true, outcome := .ok, phase := .finish, reentry := s.reentry.map (· - 1) }
      else
        { s with
          outcome := .checksumFail, reentry := s.reentry.map (· - 1)
          phase := if s.cfg.debugEnabled then .failReport else .finish })

/-- R103, R104, R130, R309: FINISH records RUN_END, the pending read command responds, decoding the payload when `S.valid`
is true and with 0xFFFF otherwise, and the engine is in IDLE again. -/
def Obligations.FinishRespondsAndReturns : Prop :=
  ∀ s : State, s.refused = false → s.phase = .finish → s.quietFor 1 →
    step s = .next { s with
      phase := .idle, trace := s.trace ++ [.runEnd s.outcome], reentry := s.reentry.map (· - 1)
      responses := s.responses ++ [.word (if s.valid then
        (match s.cmd with
          | .readTemperature => decodeTemperature s.payload[2] s.payload[3]
          | .readHumidity => decodeHumidity s.payload[0] s.payload[1]) else 0xFFFF)] }

/-- R239: DEBUG is issued only with DEBUG_ENABLED, in FAIL_REPORT, and names the failed outcome. -/
def Obligations.DebugOnlyWhenEnabled : Prop :=
  ∀ (s t : State) (c : Byte), s.Inv → step s = .next t → t.trace = s.trace ++ [.debug c] →
    s.cfg.debugEnabled = true ∧ s.phase = .failReport ∧ s.outcome.failed = true ∧ c = s.outcome.code

/-! ## Payload and values -/

/-- R176: data bit b goes to payload byte b div 8 at bit position 7 - (b mod 8). -/
def Obligations.PackingPlacesBits : Prop :=
  ∀ (bit : Fin 40 → Bool) (b : Fin 40), ((packPayload bit)[b.val / 8]).getLsbD (7 - b.val % 8) = bit b

/-- R178: the decoded bit of a pair depends only on whether the high width is the greater; scaling both widths of every
pair by the same positive factor, exactly, leaves the payload unchanged. -/
def Obligations.ScalingKeepsPayload : Prop :=
  (∀ (v w : Widths) (b : Fin 40),
    (v[2 * b.val] < v[2 * b.val + 1] ↔ w[2 * b.val] < w[2 * b.val + 1]) → dataBit w b = dataBit v b) ∧
  ∀ (v w : Widths) (f : Fin 40 → Nat),
    (∀ b : Fin 40, 0 < f b ∧
      w[2 * b.val] = f b * v[2 * b.val] ∧ w[2 * b.val + 1] = f b * v[2 * b.val + 1]) →
    packPayload (dataBit w) = packPayload (dataBit v) ∧ captureTimedOut w = captureTimedOut v

/-- R194: for every payload that passes, flipping any one of its 40 bits makes it fail. -/
def Obligations.SingleBitFlipsAreDetected : Prop :=
  ∀ (p : Payload) (k : Fin 5) (i : Fin 8), checksumOk p = true →
    checksumOk (p.set k.val (p[k] ^^^ BitVec.twoPow 8 i.val) k.isLt) = false

/-- R195 (the part on data bytes): exchanging two data bytes, and adding 1 to one and subtracting 1 from another, keep a
passing payload passing. -/
def Obligations.CompensatingErrorsPass : Prop :=
  ∀ (p : Payload) (j k : Fin 4), checksumOk p = true → j ≠ k →
    checksumOk ((p.set j.val p[k.val]).set k.val p[j.val]) = true ∧
    checksumOk ((p.set j.val (p[j.val] + 1)).set k.val (p[k.val] - 1)) = true

/-- R106, R81: a temperature is sign and magnitude: bit 7 of the high byte the sign, the other 15 bits the magnitude; the
result is never 0x8000. -/
def Obligations.TemperatureIsSignMagnitude : Prop :=
  ∀ h l : Byte,
    (decodeTemperature h l).toInt =
      (if 128 ≤ h.toNat then -((h.toNat % 128 * 256 + l.toNat : Nat) : Int)
      else ((h.toNat % 128 * 256 + l.toNat : Nat) : Int)) ∧
    decodeTemperature h l ≠ 0x8000

/-- R107: a humidity is the high byte, then the low byte, unsigned, and every word is the result of some two bytes. -/
def Obligations.HumidityIsBigEndian : Prop :=
  (∀ h l : Byte, (decodeHumidity h l).toNat = h.toNat * 256 + l.toNat) ∧
  ∀ w : Word16, ∃ h l : Byte, decodeHumidity h l = w

/-- R82: the sentinel's word is the result of a failed read, and of exactly two valid readings, temperature bytes 0x80
0x01 and humidity bytes 0xFF 0xFF. -/
def Obligations.SentinelCollisions : Prop :=
  (∀ (c : ReadCommand) (p : Payload), readResult c false p = 0xFFFF) ∧
  (∀ h l : Byte, decodeTemperature h l = 0xFFFF ↔ h = 0x80 ∧ l = 0x01) ∧
  (∀ h l : Byte, decodeHumidity h l = 0xFFFF ↔ h = 0xFF ∧ l = 0xFF)

/-! ## Pulses and whole runs -/

/-- R211, R213: when the first k polls see the awaited level and poll k + 1 the other, k at most the ceiling, the Pulse
returns k after exactly k + 1 polls, having issued only those polls. -/
def Obligations.PulseMeasuresWidth : Prop :=
  ∀ (s : State) (k : Nat) (rest : List Level),
    s.refused = false → s.phase.polls = true → s.quietFor (k + 1) → s.count = 0 →
    k ≤ s.maxCycles → s.readAnswers = seg s.awaited k ++ rest →
    Steps (k + 1) s (State.pulseDone k { s with
      readAnswers := rest, count := k, reentry := s.reentry.map (· - (k + 1))
      trace := s.trace ++ (seg s.awaited k).map (Event.read s.pin) })

/-- R212: when the first S.maxCycles + 1 polls all see the awaited level, the Pulse returns 0 after exactly that many polls
and issues no further poll. -/
def Obligations.PulseTimesOut : Prop :=
  ∀ (s : State) (rest : List Level),
    s.refused = false → s.phase.polls = true → s.quietFor (s.maxCycles + 1) → s.count = 0 →
    s.readAnswers = List.replicate (s.maxCycles + 1) s.awaited ++ rest →
    Steps (s.maxCycles + 1) s (State.pulseDone 0 { s with
      readAnswers := rest, count := s.maxCycles, reentry := s.reentry.map (· - (s.maxCycles + 1))
      trace := s.trace ++ (List.replicate (s.maxCycles + 1) s.awaited).map (Event.read s.pin) })

/-- R170, R171, R173, R211, R212: the capture measures all 80 pulses, LOW and HIGH in turn, and stores each width in its
place, never stopping early: a pulse is a width up to the ceiling, 0 included, or the awaited level past the ceiling, which
is stored as 0; only polls are issued. -/
def Obligations.CaptureRecordsEveryWidth : Prop :=
  ∀ (s : State) (ws : List (Option Nat)) (rest : List Level),
    s.refused = false → s.phase = .capture → s.count = 0 → s.idx = 0 →
    ws.length = 80 → (∀ w ∈ ws, ∀ k, w = some k → k ≤ s.maxCycles) →
    s.readAnswers = pulseScript s.maxCycles 0 ws ++ rest →
    s.quietFor (pulseScript s.maxCycles 0 ws).length →
    ∃ t : State, Steps (pulseScript s.maxCycles 0 ws).length s t ∧
      t.pw.toList = ws.map (·.getD 0) ∧
      t = { s with
        phase := .capUnmask, count := 0, readAnswers := rest
        reentry := s.reentry.map (· - (pulseScript s.maxCycles 0 ws).length)
        trace := s.trace ++ (pulseScript s.maxCycles 0 ws).map (Event.read s.pin)
        pw := t.pw, idx := t.idx, draws := t.draws }

/-- R136, R137: whatever the host answers, a command in progress is over after finitely many steps, at most 17 + 82 *
(S.maxCycles + 1) of them, having issued at most 14 + 82 * (S.maxCycles + 1) host requests and recorded at most one
RUN_END; unless a command that does not wait is refused on the way (R109). -/
def Obligations.RunCompletesWithinBound : Prop :=
  ∀ s : State, s.refused = false → s.phase ≠ .idle →
    ∃ (n : Nat) (t : State) (new : List Event), n ≤ runBound s ∧ Steps n s t ∧
      (t.phase = .idle ∨ t.refused = true) ∧ t.trace = s.trace ++ new ∧
      (new.filter fun e => !e.isRunEnd).length ≤ 14 + 82 * (s.maxCycles + 1) ∧
      (new.filter Event.isRunEnd).length ≤ 1

/-- R130, R134, R136: a run that passes the availability check and finds the line HIGH at the first poll issues exactly 12
requests, no PREEMPT_OFF and no PREEMPT_ON among them, ends in START_FAIL, and the read command responds with the
sentinel. -/
def Obligations.StartFailAtFirstPoll : Prop :=
  ∀ (s : State) (t1 t2 : Nat) (ts : List Nat) (ls : List Level),
    s.refused = false → s.phase = .runAvail → s.quietFor 13 → s.cfg.debugEnabled = false →
    s.clockAnswers = t1 :: t2 :: ts → t1 < 2 ^ s.cfg.msBits → t2 < 2 ^ s.cfg.msBits →
    s.readAnswers = .high :: ls → avail s.cfg t1 s.lastTs = true →
    ∃ t : State, Steps 13 s t ∧
      t = { s with
        phase := .idle, clockAnswers := ts, readAnswers := ls, lastTs := t2, valid := false, count := 0
        outcome := .startFail, responses := s.responses ++ [.word 0xFFFF], reentry := s.reentry.map (· - 13)
        trace := s.trace ++ [
          .nowMs t1, .nowMs t2, .write s.pin .high, .delayMs s.cfg.idleHighMs, .setMode s.pin .output,
          .write s.pin .low, .delayMs s.cfg.wakeLowMs, .write s.pin .high, .delayUs s.cfg.endHighUs,
          .setMode s.pin s.cfg.releaseMode, .delayUs s.cfg.settleUs, .read s.pin .high, .runEnd .startFail]
        payload := t.payload, draws := t.draws }

/-- The scenario of 95_test_vectors.md V-S1 for every payload and every frame whose widths tell 0 from 1 (R130, R155, R170 to
R177, R190 to R192): the read command runs the protocol, the payload is the frame's, `S.valid` says whether its checksum
matches, and the response is the decoded value or the sentinel. -/
def Obligations.ReadReturnsFrameContents : Prop :=
  ∀ (s : State) (c : ReadCommand) (p : Payload) (a b lo h0 h1 : Nat) (more : List Byte) (t1 t2 : Nat)
    (ts : List Nat) (rest : List Level),
    s.refused = false → s.life = .ready → s.phase = .idle →
    s.calls = encode s.cfg.pinBytes c.instr ++ more → { s with calls := more }.quietFor (runBound s) →
    s.clockAnswers = t1 :: t2 :: ts → t1 < 2 ^ s.cfg.msBits → t2 < 2 ^ s.cfg.msBits →
    avail s.cfg t1 s.lastTs = true →
    0 < a → a ≤ s.maxCycles → 0 < b → b ≤ s.maxCycles →
    0 < h0 → h0 ≤ lo → lo < h1 → h1 ≤ s.maxCycles →
    s.readAnswers = frameScript p a b lo h0 h1 ++ rest →
    ∃ (n : Nat) (t : State), Steps n s t ∧ t.phase = .idle ∧ t.payload = p ∧ t.valid = checksumOk p ∧
      t.outcome = (if checksumOk p then .ok else .checksumFail) ∧ t.lastTs = t2 ∧
      t.responses = s.responses ++ [.word (readResult c (checksumOk p) p)] ∧
      t.calls = more ∧ t.readAnswers = rest ∧ t.clockAnswers = ts

/-! ## Invariants -/

/-- R400, R6: reset is UNBUILT and not refused, with the default parameters (the bytes of a pin are log 2), and meets the four
invariants; the values of the elements the spec gives none are log 5. -/
def Obligations.ResetMeetsInvariants : Prop :=
  State.reset.life = .unbuilt ∧ State.reset.refused = false ∧
  State.reset.cfg = ⟨4, 32, 32, 1000, 2000, 10, 20, 40, 10, .inputPullup, false⟩ ∧
  State.reset.Inv ∧ State.reset.WidthInv ∧ State.reset.BracketInv ∧ State.reset.PinInv

/-- R26, R28, R29, R32, R133, R215, R301: every step keeps the invariant of the engine's state. -/
def Obligations.StepKeepsInvariant : Prop :=
  ∀ s t : State, s.Inv → step s = .next t → t.Inv

/-- R20, R22, R23, R27, R29, R83, R215: every step keeps every element within the width its parameter gives it (logs 2,
9). -/
def Obligations.StepKeepsWidths : Prop :=
  ∀ s t : State, s.WidthInv → step s = .next t → t.WidthInv

/-- R172, R32: every step keeps the preemption bracket: PREEMPT_OFF and PREEMPT_ON alternate, only polls stand between
them, and `S.masked` says whether the bracket is open. -/
def Obligations.StepKeepsPreemptionBracket : Prop :=
  ∀ s t : State, s.BracketInv → step s = .next t → t.BracketInv

/-- R242: every SET_MODE, WRITE and READ names `S.pin`; every step keeps that true of the whole trace. -/
def Obligations.StepKeepsPin : Prop :=
  ∀ s t : State, s.PinInv → step s = .next t → t.PinInv

/-- R21, R22, R6: once the engine is built no step writes `S.pin` or `S.maxCycles`, and no step at all writes a parameter. -/
def Obligations.ConstructionRegistersAreFixed : Prop :=
  ∀ s t : State, step s = .next t →
    t.cfg = s.cfg ∧ (s.life ≠ .unbuilt → t.life ≠ .unbuilt ∧ t.pin = s.pin ∧ t.maxCycles = s.maxCycles)

/-- R192: CHECKSUM is the only step that sets `S.valid` to true, and it does so only when the checksum matches. -/
def Obligations.OnlyChecksumSetsValid : Prop :=
  ∀ s t : State, step s = .next t → s.valid = false → t.valid = true →
    s.phase = .checksum ∧ checksumOk s.payload = true ∧ t.payload = s.payload ∧ t.outcome = .ok

/-- R20, column "written by": which step may write the timestamp, the scratch buffer, the read command and the payload. That
a draw for the payload (R135) is written in the failing step itself, ACK_LOW, ACK_HIGH or DECODE, is the model's reading
(log 4, DEDUCED), not R20's; in DECODE the column gives the write by R177 too. -/
def Obligations.RegisterWriters : Prop :=
  ∀ s t : State, step s = .next t →
    (t.lastTs ≠ s.lastTs → s.phase = .runStamp ∨ s.phase = .initMode) ∧
    (t.payload ≠ s.payload → s.phase = .decode ∨ s.phase = .ackLow ∨ s.phase = .ackHigh) ∧
    (t.pw ≠ s.pw → s.phase = .capture ∧ ∃ w, t.pw = s.pw.set s.idx.val w s.idx.isLt) ∧
    (t.cmd ≠ s.cmd → s.phase = .idle ∧ s.life = .ready) ∧
    (t.responses ≠ s.responses → s.phase = .finish ∨ s.phase = .availQuery)
end

