-- ==== Sys2Proof/Laws/Decode.lean ====
section
/-! SUPPORT. Numbers in bytes: their length, that taking gives back what was laid out, and the converse. -/

namespace Sys2Proof

@[simp] theorem length_natBytes (k n : Nat) : (natBytes k n).length = k := by
  induction k generalizing n with
  | zero => rfl
  | succ k ih => simp [natBytes, ih]

@[simp] theorem length_wordBytes (w : Word32) : (wordBytes w).length = 4 := length_natBytes 4 _

@[simp] theorem length_pinBytes (k : Nat) (p : PinId) : (p.bytes k).length = k := length_natBytes k _

@[simp] theorem PinId.fits_iff {k : Nat} {p : PinId} : p.fits k = true ↔ p.id < 256 ^ k := by simp [PinId.fits]

/-- A number that fits its bytes is taken back from them. -/
theorem takeNat_natBytes {k n : Nat} (h : n < 256 ^ k) (rest : List Byte) :
    takeNat k (natBytes k n ++ rest) = some (n, rest) := by
  induction k generalizing n with
  | zero => simp at h; simp [takeNat, natBytes, h]
  | succ k ih =>
    have hd : n / 256 < 256 ^ k := Nat.div_lt_of_lt_mul (by rwa [Nat.pow_succ, Nat.mul_comm] at h)
    simp only [natBytes, List.cons_append, takeNat, ih hd, Option.map_some, BitVec.toNat_ofNat]
    congr 2
    omega

/-- What is taken fits its bytes, and the bytes are those of the number taken. -/
theorem takeNat_eq_some {k n : Nat} {bs rest : List Byte} (h : takeNat k bs = some (n, rest)) :
    n < 256 ^ k ∧ bs = natBytes k n ++ rest := by
  induction k generalizing n bs with
  | zero => cases h; simp [natBytes]
  | succ k ih =>
    cases bs with
    | nil => cases h
    | cons b bs =>
      simp only [takeNat, Option.map_eq_some_iff, Prod.mk.injEq, Prod.exists] at h
      obtain ⟨m, r, hm, rfl, rfl⟩ := h
      obtain ⟨hlt, hbs⟩ := ih hm
      have hb := b.isLt
      refine ⟨by rw [Nat.pow_succ]; omega, ?_⟩
      rw [natBytes, show (b.toNat + 256 * m) / 256 = m by omega, List.cons_append, ← hbs]
      congr 1
      apply BitVec.eq_of_toNat_eq
      rw [BitVec.toNat_ofNat]
      omega

/-- A pin operand that fits is read back. -/
theorem withOperand_natBytes {k n : Nat} (h : n < 256 ^ k) (rest : List Byte) (go : Nat → List Byte → Decoded) :
    withOperand k (natBytes k n ++ rest) go = go n rest := by
  simp [withOperand, takeNat_natBytes h]

/-- What decodes after an operand begins with the operand's bytes. -/
theorem withOperand_eq_ok {k : Nat} {bs : List Byte} {go : Nat → List Byte → Decoded} {r : Instr × List Byte}
    (h : withOperand k bs go = .ok r) :
    ∃ n rest, n < 256 ^ k ∧ bs = natBytes k n ++ rest ∧ go n rest = .ok r := by
  unfold withOperand at h
  split at h
  · rename_i n rest ht
    obtain ⟨hn, hb⟩ := takeNat_eq_some ht
    exact ⟨n, rest, hn, hb, h⟩
  · cases h

end Sys2Proof
end

