-- ==== Sys2Proof/Laws/Flags.lean ====
section
/-! SUPPORT. What each tested condition and each operand computation says, in arithmetic and logic. -/

namespace Sys2Proof.Machine

@[simp] theorem ceilingFits_iff {c : Config} {cpu : Word32} :
    ceilingFits c cpu = true ↔ c.timeoutUs * cpu.toNat < 2 ^ c.countBits := by
  unfold ceilingFits ceiling
  exact decide_eq_true_iff

/-- The elapsed time is a clock value (R9). -/
theorem elapsed_lt (b t last : Nat) : elapsed b t last < 2 ^ b := Nat.mod_lt _ (Nat.two_pow_pos b)

@[simp] theorem avail_iff {c : Config} {t last : Nat} :
    avail c t last = true ↔ c.minIntervalMs ≤ elapsed c.msBits t last := by
  simp [avail]

@[simp] theorem admitsConstruct_iff {s : State} : admitsConstruct s = true ↔ s.life = .unbuilt := by
  simp [admitsConstruct]

@[simp] theorem admitsInit_iff {s : State} :
    admitsInit s = true ↔ (s.life = .built ∨ s.life = .ready) ∧ s.phase = .idle := by
  simp [admitsInit]

@[simp] theorem admitsQuery_iff {s : State} : admitsQuery s = true ↔ s.life = .ready ∧ s.phase = .idle := by
  simp [admitsQuery]

@[simp] theorem Level.flip_ne (l : Level) : l.flip ≠ l := by cases l <;> decide

theorem Level.ne_iff_eq_flip {a l : Level} : a ≠ l ↔ a = l.flip := by cases a <;> cases l <;> decide

/-- The checksum is the sum of bytes 0 to 3 modulo 256 (R190). -/
theorem checksumOk_iff {p : Payload} :
    checksumOk p = true ↔ p[4].toNat = (p[0].toNat + p[1].toNat + p[2].toNat + p[3].toNat) % 256 := by
  unfold checksumOk checksumOf
  rw [decide_eq_true_iff, ← BitVec.toNat_inj, BitVec.toNat_ofNat]

/-- A capture timed out when some pair holds a width 0 (R174). -/
theorem captureTimedOut_iff {pw : Widths} :
    captureTimedOut pw = true ↔ ∃ b : Fin 40, lowWidth pw b = 0 ∨ highWidth pw b = 0 := by
  simp [captureTimedOut]

end Sys2Proof.Machine
end

