-- ==== Sys2Proof/Laws/State.lean ====
section
/-! SUPPORT. One lemma per field per named update of State, true by rfl. -/

namespace Sys2Proof.Machine

/-! ## goto -/

@[simp] theorem State.goto_life (p : Phase) (s : State) : (s.goto p).life = s.life := rfl
@[simp] theorem State.goto_pin (p : Phase) (s : State) : (s.goto p).pin = s.pin := rfl
@[simp] theorem State.goto_maxCycles (p : Phase) (s : State) : (s.goto p).maxCycles = s.maxCycles := rfl
@[simp] theorem State.goto_lastTs (p : Phase) (s : State) : (s.goto p).lastTs = s.lastTs := rfl
@[simp] theorem State.goto_valid (p : Phase) (s : State) : (s.goto p).valid = s.valid := rfl
@[simp] theorem State.goto_payload (p : Phase) (s : State) : (s.goto p).payload = s.payload := rfl
@[simp] theorem State.goto_pw (p : Phase) (s : State) : (s.goto p).pw = s.pw := rfl
@[simp] theorem State.goto_phase (p : Phase) (s : State) : (s.goto p).phase = p := rfl
@[simp] theorem State.goto_count (p : Phase) (s : State) : (s.goto p).count = s.count := rfl
@[simp] theorem State.goto_idx (p : Phase) (s : State) : (s.goto p).idx = s.idx := rfl
@[simp] theorem State.goto_cmd (p : Phase) (s : State) : (s.goto p).cmd = s.cmd := rfl
@[simp] theorem State.goto_outcome (p : Phase) (s : State) : (s.goto p).outcome = s.outcome := rfl
@[simp] theorem State.goto_masked (p : Phase) (s : State) : (s.goto p).masked = s.masked := rfl
@[simp] theorem State.goto_refused (p : Phase) (s : State) : (s.goto p).refused = s.refused := rfl
@[simp] theorem State.goto_cfg (p : Phase) (s : State) : (s.goto p).cfg = s.cfg := rfl
@[simp] theorem State.goto_calls (p : Phase) (s : State) : (s.goto p).calls = s.calls := rfl
@[simp] theorem State.goto_reentry (p : Phase) (s : State) : (s.goto p).reentry = s.reentry := rfl
@[simp] theorem State.goto_readAnswers (p : Phase) (s : State) : (s.goto p).readAnswers = s.readAnswers := rfl
@[simp] theorem State.goto_clockAnswers (p : Phase) (s : State) : (s.goto p).clockAnswers = s.clockAnswers := rfl
@[simp] theorem State.goto_draws (p : Phase) (s : State) : (s.goto p).draws = s.draws := rfl
@[simp] theorem State.goto_trace (p : Phase) (s : State) : (s.goto p).trace = s.trace := rfl
@[simp] theorem State.goto_responses (p : Phase) (s : State) : (s.goto p).responses = s.responses := rfl

/-! ## emit -/

@[simp] theorem State.emit_life (e : Event) (s : State) : (s.emit e).life = s.life := rfl
@[simp] theorem State.emit_pin (e : Event) (s : State) : (s.emit e).pin = s.pin := rfl
@[simp] theorem State.emit_maxCycles (e : Event) (s : State) : (s.emit e).maxCycles = s.maxCycles := rfl
@[simp] theorem State.emit_lastTs (e : Event) (s : State) : (s.emit e).lastTs = s.lastTs := rfl
@[simp] theorem State.emit_valid (e : Event) (s : State) : (s.emit e).valid = s.valid := rfl
@[simp] theorem State.emit_payload (e : Event) (s : State) : (s.emit e).payload = s.payload := rfl
@[simp] theorem State.emit_pw (e : Event) (s : State) : (s.emit e).pw = s.pw := rfl
@[simp] theorem State.emit_phase (e : Event) (s : State) : (s.emit e).phase = s.phase := rfl
@[simp] theorem State.emit_count (e : Event) (s : State) : (s.emit e).count = s.count := rfl
@[simp] theorem State.emit_idx (e : Event) (s : State) : (s.emit e).idx = s.idx := rfl
@[simp] theorem State.emit_cmd (e : Event) (s : State) : (s.emit e).cmd = s.cmd := rfl
@[simp] theorem State.emit_outcome (e : Event) (s : State) : (s.emit e).outcome = s.outcome := rfl
@[simp] theorem State.emit_masked (e : Event) (s : State) : (s.emit e).masked = s.masked := rfl
@[simp] theorem State.emit_refused (e : Event) (s : State) : (s.emit e).refused = s.refused := rfl
@[simp] theorem State.emit_cfg (e : Event) (s : State) : (s.emit e).cfg = s.cfg := rfl
@[simp] theorem State.emit_calls (e : Event) (s : State) : (s.emit e).calls = s.calls := rfl
@[simp] theorem State.emit_reentry (e : Event) (s : State) : (s.emit e).reentry = s.reentry := rfl
@[simp] theorem State.emit_readAnswers (e : Event) (s : State) : (s.emit e).readAnswers = s.readAnswers := rfl
@[simp] theorem State.emit_clockAnswers (e : Event) (s : State) : (s.emit e).clockAnswers = s.clockAnswers := rfl
@[simp] theorem State.emit_draws (e : Event) (s : State) : (s.emit e).draws = s.draws := rfl
@[simp] theorem State.emit_trace (e : Event) (s : State) : (s.emit e).trace = s.trace ++ [e] := rfl
@[simp] theorem State.emit_responses (e : Event) (s : State) : (s.emit e).responses = s.responses := rfl

/-! ## respond -/

@[simp] theorem State.respond_life (r : Response) (s : State) : (s.respond r).life = s.life := rfl
@[simp] theorem State.respond_pin (r : Response) (s : State) : (s.respond r).pin = s.pin := rfl
@[simp] theorem State.respond_maxCycles (r : Response) (s : State) : (s.respond r).maxCycles = s.maxCycles := rfl
@[simp] theorem State.respond_lastTs (r : Response) (s : State) : (s.respond r).lastTs = s.lastTs := rfl
@[simp] theorem State.respond_valid (r : Response) (s : State) : (s.respond r).valid = s.valid := rfl
@[simp] theorem State.respond_payload (r : Response) (s : State) : (s.respond r).payload = s.payload := rfl
@[simp] theorem State.respond_pw (r : Response) (s : State) : (s.respond r).pw = s.pw := rfl
@[simp] theorem State.respond_phase (r : Response) (s : State) : (s.respond r).phase = s.phase := rfl
@[simp] theorem State.respond_count (r : Response) (s : State) : (s.respond r).count = s.count := rfl
@[simp] theorem State.respond_idx (r : Response) (s : State) : (s.respond r).idx = s.idx := rfl
@[simp] theorem State.respond_cmd (r : Response) (s : State) : (s.respond r).cmd = s.cmd := rfl
@[simp] theorem State.respond_outcome (r : Response) (s : State) : (s.respond r).outcome = s.outcome := rfl
@[simp] theorem State.respond_masked (r : Response) (s : State) : (s.respond r).masked = s.masked := rfl
@[simp] theorem State.respond_refused (r : Response) (s : State) : (s.respond r).refused = s.refused := rfl
@[simp] theorem State.respond_cfg (r : Response) (s : State) : (s.respond r).cfg = s.cfg := rfl
@[simp] theorem State.respond_calls (r : Response) (s : State) : (s.respond r).calls = s.calls := rfl
@[simp] theorem State.respond_reentry (r : Response) (s : State) : (s.respond r).reentry = s.reentry := rfl
@[simp] theorem State.respond_readAnswers (r : Response) (s : State) : (s.respond r).readAnswers = s.readAnswers := rfl
@[simp] theorem State.respond_clockAnswers (r : Response) (s : State) : (s.respond r).clockAnswers = s.clockAnswers := rfl
@[simp] theorem State.respond_draws (r : Response) (s : State) : (s.respond r).draws = s.draws := rfl
@[simp] theorem State.respond_trace (r : Response) (s : State) : (s.respond r).trace = s.trace := rfl
@[simp] theorem State.respond_responses (r : Response) (s : State) : (s.respond r).responses = s.responses ++ [r] := rfl

/-! ## refuse -/

@[simp] theorem State.refuse_life (s : State) : (s.refuse).life = s.life := rfl
@[simp] theorem State.refuse_pin (s : State) : (s.refuse).pin = s.pin := rfl
@[simp] theorem State.refuse_maxCycles (s : State) : (s.refuse).maxCycles = s.maxCycles := rfl
@[simp] theorem State.refuse_lastTs (s : State) : (s.refuse).lastTs = s.lastTs := rfl
@[simp] theorem State.refuse_valid (s : State) : (s.refuse).valid = s.valid := rfl
@[simp] theorem State.refuse_payload (s : State) : (s.refuse).payload = s.payload := rfl
@[simp] theorem State.refuse_pw (s : State) : (s.refuse).pw = s.pw := rfl
@[simp] theorem State.refuse_phase (s : State) : (s.refuse).phase = s.phase := rfl
@[simp] theorem State.refuse_count (s : State) : (s.refuse).count = s.count := rfl
@[simp] theorem State.refuse_idx (s : State) : (s.refuse).idx = s.idx := rfl
@[simp] theorem State.refuse_cmd (s : State) : (s.refuse).cmd = s.cmd := rfl
@[simp] theorem State.refuse_outcome (s : State) : (s.refuse).outcome = s.outcome := rfl
@[simp] theorem State.refuse_masked (s : State) : (s.refuse).masked = s.masked := rfl
@[simp] theorem State.refuse_refused (s : State) : (s.refuse).refused = true := rfl
@[simp] theorem State.refuse_cfg (s : State) : (s.refuse).cfg = s.cfg := rfl
@[simp] theorem State.refuse_calls (s : State) : (s.refuse).calls = s.calls := rfl
@[simp] theorem State.refuse_reentry (s : State) : (s.refuse).reentry = s.reentry := rfl
@[simp] theorem State.refuse_readAnswers (s : State) : (s.refuse).readAnswers = s.readAnswers := rfl
@[simp] theorem State.refuse_clockAnswers (s : State) : (s.refuse).clockAnswers = s.clockAnswers := rfl
@[simp] theorem State.refuse_draws (s : State) : (s.refuse).draws = s.draws := rfl
@[simp] theorem State.refuse_trace (s : State) : (s.refuse).trace = s.trace := rfl
@[simp] theorem State.refuse_responses (s : State) : (s.refuse).responses = s.responses := rfl

/-! ## tick -/

@[simp] theorem State.tick_life (s : State) : (s.tick).life = s.life := rfl
@[simp] theorem State.tick_pin (s : State) : (s.tick).pin = s.pin := rfl
@[simp] theorem State.tick_maxCycles (s : State) : (s.tick).maxCycles = s.maxCycles := rfl
@[simp] theorem State.tick_lastTs (s : State) : (s.tick).lastTs = s.lastTs := rfl
@[simp] theorem State.tick_valid (s : State) : (s.tick).valid = s.valid := rfl
@[simp] theorem State.tick_payload (s : State) : (s.tick).payload = s.payload := rfl
@[simp] theorem State.tick_pw (s : State) : (s.tick).pw = s.pw := rfl
@[simp] theorem State.tick_phase (s : State) : (s.tick).phase = s.phase := rfl
@[simp] theorem State.tick_count (s : State) : (s.tick).count = s.count := rfl
@[simp] theorem State.tick_idx (s : State) : (s.tick).idx = s.idx := rfl
@[simp] theorem State.tick_cmd (s : State) : (s.tick).cmd = s.cmd := rfl
@[simp] theorem State.tick_outcome (s : State) : (s.tick).outcome = s.outcome := rfl
@[simp] theorem State.tick_masked (s : State) : (s.tick).masked = s.masked := rfl
@[simp] theorem State.tick_refused (s : State) : (s.tick).refused = s.refused := rfl
@[simp] theorem State.tick_cfg (s : State) : (s.tick).cfg = s.cfg := rfl
@[simp] theorem State.tick_calls (s : State) : (s.tick).calls = s.calls := rfl
@[simp] theorem State.tick_reentry (s : State) : (s.tick).reentry = s.reentry.map (· - 1) := rfl
@[simp] theorem State.tick_readAnswers (s : State) : (s.tick).readAnswers = s.readAnswers := rfl
@[simp] theorem State.tick_clockAnswers (s : State) : (s.tick).clockAnswers = s.clockAnswers := rfl
@[simp] theorem State.tick_draws (s : State) : (s.tick).draws = s.draws := rfl
@[simp] theorem State.tick_trace (s : State) : (s.tick).trace = s.trace := rfl
@[simp] theorem State.tick_responses (s : State) : (s.tick).responses = s.responses := rfl

/-! ## takeLevel -/

@[simp] theorem State.takeLevel_life (s : State) : (s.takeLevel).life = s.life := rfl
@[simp] theorem State.takeLevel_pin (s : State) : (s.takeLevel).pin = s.pin := rfl
@[simp] theorem State.takeLevel_maxCycles (s : State) : (s.takeLevel).maxCycles = s.maxCycles := rfl
@[simp] theorem State.takeLevel_lastTs (s : State) : (s.takeLevel).lastTs = s.lastTs := rfl
@[simp] theorem State.takeLevel_valid (s : State) : (s.takeLevel).valid = s.valid := rfl
@[simp] theorem State.takeLevel_payload (s : State) : (s.takeLevel).payload = s.payload := rfl
@[simp] theorem State.takeLevel_pw (s : State) : (s.takeLevel).pw = s.pw := rfl
@[simp] theorem State.takeLevel_phase (s : State) : (s.takeLevel).phase = s.phase := rfl
@[simp] theorem State.takeLevel_count (s : State) : (s.takeLevel).count = s.count := rfl
@[simp] theorem State.takeLevel_idx (s : State) : (s.takeLevel).idx = s.idx := rfl
@[simp] theorem State.takeLevel_cmd (s : State) : (s.takeLevel).cmd = s.cmd := rfl
@[simp] theorem State.takeLevel_outcome (s : State) : (s.takeLevel).outcome = s.outcome := rfl
@[simp] theorem State.takeLevel_masked (s : State) : (s.takeLevel).masked = s.masked := rfl
@[simp] theorem State.takeLevel_refused (s : State) : (s.takeLevel).refused = s.refused := rfl
@[simp] theorem State.takeLevel_cfg (s : State) : (s.takeLevel).cfg = s.cfg := rfl
@[simp] theorem State.takeLevel_calls (s : State) : (s.takeLevel).calls = s.calls := rfl
@[simp] theorem State.takeLevel_reentry (s : State) : (s.takeLevel).reentry = s.reentry := rfl
@[simp] theorem State.takeLevel_readAnswers (s : State) : (s.takeLevel).readAnswers = s.readAnswers.tail := rfl
@[simp] theorem State.takeLevel_clockAnswers (s : State) : (s.takeLevel).clockAnswers = s.clockAnswers := rfl
@[simp] theorem State.takeLevel_draws (s : State) : (s.takeLevel).draws = if s.readAnswers.isEmpty then s.draws + 1 else s.draws := rfl
@[simp] theorem State.takeLevel_trace (s : State) : (s.takeLevel).trace = s.trace := rfl
@[simp] theorem State.takeLevel_responses (s : State) : (s.takeLevel).responses = s.responses := rfl

/-! ## takeClock -/

@[simp] theorem State.takeClock_life (s : State) : (s.takeClock).life = s.life := rfl
@[simp] theorem State.takeClock_pin (s : State) : (s.takeClock).pin = s.pin := rfl
@[simp] theorem State.takeClock_maxCycles (s : State) : (s.takeClock).maxCycles = s.maxCycles := rfl
@[simp] theorem State.takeClock_lastTs (s : State) : (s.takeClock).lastTs = s.lastTs := rfl
@[simp] theorem State.takeClock_valid (s : State) : (s.takeClock).valid = s.valid := rfl
@[simp] theorem State.takeClock_payload (s : State) : (s.takeClock).payload = s.payload := rfl
@[simp] theorem State.takeClock_pw (s : State) : (s.takeClock).pw = s.pw := rfl
@[simp] theorem State.takeClock_phase (s : State) : (s.takeClock).phase = s.phase := rfl
@[simp] theorem State.takeClock_count (s : State) : (s.takeClock).count = s.count := rfl
@[simp] theorem State.takeClock_idx (s : State) : (s.takeClock).idx = s.idx := rfl
@[simp] theorem State.takeClock_cmd (s : State) : (s.takeClock).cmd = s.cmd := rfl
@[simp] theorem State.takeClock_outcome (s : State) : (s.takeClock).outcome = s.outcome := rfl
@[simp] theorem State.takeClock_masked (s : State) : (s.takeClock).masked = s.masked := rfl
@[simp] theorem State.takeClock_refused (s : State) : (s.takeClock).refused = s.refused := rfl
@[simp] theorem State.takeClock_cfg (s : State) : (s.takeClock).cfg = s.cfg := rfl
@[simp] theorem State.takeClock_calls (s : State) : (s.takeClock).calls = s.calls := rfl
@[simp] theorem State.takeClock_reentry (s : State) : (s.takeClock).reentry = s.reentry := rfl
@[simp] theorem State.takeClock_readAnswers (s : State) : (s.takeClock).readAnswers = s.readAnswers := rfl
@[simp] theorem State.takeClock_clockAnswers (s : State) : (s.takeClock).clockAnswers = s.clockAnswers.tail := rfl
@[simp] theorem State.takeClock_draws (s : State) : (s.takeClock).draws = if s.clockAnswers.isEmpty then s.draws + 1 else s.draws := rfl
@[simp] theorem State.takeClock_trace (s : State) : (s.takeClock).trace = s.trace := rfl
@[simp] theorem State.takeClock_responses (s : State) : (s.takeClock).responses = s.responses := rfl

/-! ## drawPayload -/

@[simp] theorem State.drawPayload_life (s : State) : (s.drawPayload).life = s.life := rfl
@[simp] theorem State.drawPayload_pin (s : State) : (s.drawPayload).pin = s.pin := rfl
@[simp] theorem State.drawPayload_maxCycles (s : State) : (s.drawPayload).maxCycles = s.maxCycles := rfl
@[simp] theorem State.drawPayload_lastTs (s : State) : (s.drawPayload).lastTs = s.lastTs := rfl
@[simp] theorem State.drawPayload_valid (s : State) : (s.drawPayload).valid = s.valid := rfl
@[simp] theorem State.drawPayload_pw (s : State) : (s.drawPayload).pw = s.pw := rfl
@[simp] theorem State.drawPayload_phase (s : State) : (s.drawPayload).phase = s.phase := rfl
@[simp] theorem State.drawPayload_count (s : State) : (s.drawPayload).count = s.count := rfl
@[simp] theorem State.drawPayload_idx (s : State) : (s.drawPayload).idx = s.idx := rfl
@[simp] theorem State.drawPayload_cmd (s : State) : (s.drawPayload).cmd = s.cmd := rfl
@[simp] theorem State.drawPayload_outcome (s : State) : (s.drawPayload).outcome = s.outcome := rfl
@[simp] theorem State.drawPayload_masked (s : State) : (s.drawPayload).masked = s.masked := rfl
@[simp] theorem State.drawPayload_refused (s : State) : (s.drawPayload).refused = s.refused := rfl
@[simp] theorem State.drawPayload_cfg (s : State) : (s.drawPayload).cfg = s.cfg := rfl
@[simp] theorem State.drawPayload_calls (s : State) : (s.drawPayload).calls = s.calls := rfl
@[simp] theorem State.drawPayload_reentry (s : State) : (s.drawPayload).reentry = s.reentry := rfl
@[simp] theorem State.drawPayload_readAnswers (s : State) : (s.drawPayload).readAnswers = s.readAnswers := rfl
@[simp] theorem State.drawPayload_clockAnswers (s : State) : (s.drawPayload).clockAnswers = s.clockAnswers := rfl
@[simp] theorem State.drawPayload_draws (s : State) : (s.drawPayload).draws = s.draws + 1 := rfl
@[simp] theorem State.drawPayload_trace (s : State) : (s.drawPayload).trace = s.trace := rfl
@[simp] theorem State.drawPayload_responses (s : State) : (s.drawPayload).responses = s.responses := rfl

end Sys2Proof.Machine
end

