-- ==== Sys2Proof/Laws/Ops.lean ====
section
/-! SUPPORT. One spec lemma per shared operation: what it answers and everything it can do. -/

namespace Sys2Proof.Machine

/-! ## live, command, completes -/

@[simp] theorem live_of_live {s : State} (t : State) (h : s.refused = false) : live s t = .next t := by
  simp [live, h]

theorem live_next {s t u : State} : live s t = .next u ↔ s.refused = false ∧ t = u := by
  unfold live
  cases s.refused <;> simp

/-- A command answers its effect where it is admitted, and is refused where it is not. -/
theorem command_next {a : Bool} {f : State → State} {s t : State} :
    command a f s = .next t ↔ s.refused = false ∧ (a = true ∧ f s = t ∨ a = false ∧ s.refuse = t) := by
  cases a <;> simp [command, live_next]

theorem completes_own {i : Instr} {f : State → State} {s : State} (h : phaseRequest s = some i) :
    completes i f s = f s := by
  simp [completes, h]

theorem completes_other {i : Instr} {f : State → State} {s : State} (h : phaseRequest s ≠ some i) :
    completes i f s = s := by
  simp [completes, h]

/-- The request of the phase depends on the phase, the pin, the parameters and the outcome alone. -/
theorem phaseRequest_congr {s t : State} (hp : t.phase = s.phase) (hn : t.pin = s.pin) (hc : t.cfg = s.cfg)
    (ho : t.outcome = s.outcome) : phaseRequest t = phaseRequest s := by
  unfold phaseRequest
  rw [hp, hn, hc, ho]

@[simp] theorem phaseRequest_emit (e : Event) (s : State) : phaseRequest (s.emit e) = phaseRequest s := rfl
@[simp] theorem phaseRequest_tick (s : State) : phaseRequest s.tick = phaseRequest s := rfl
@[simp] theorem phaseRequest_takeLevel (s : State) : phaseRequest s.takeLevel = phaseRequest s := rfl
@[simp] theorem phaseRequest_takeClock (s : State) : phaseRequest s.takeClock = phaseRequest s := rfl

/-! ## Mode codes -/

@[simp] theorem Mode.ofCode_code (m : Mode) : Mode.ofCode m.code = some m := by cases m <;> rfl

theorem Mode.ofCode_eq_some {c : BitVec 2} {m : Mode} : Mode.ofCode c = some m ↔ c = m.code := by
  constructor
  · intro h
    have := c.isLt
    revert h
    unfold Mode.ofCode
    split
    · rintro ⟨⟩; assumption
    split
    · rintro ⟨⟩; assumption
    split
    · rintro ⟨⟩; assumption
    · intro h; cases h
  · rintro rfl; simp

/-! ## The failure entry (R308) -/

/-- All a failure changes: the outcome, the phase and, for START_FAIL and CAPTURE_TIMEOUT, the payload and
the counter of free values. -/
theorem fail_eq (k : OutcomeCode) (s : State) :
    s.fail k = { s with
      outcome := k
      phase := failPhase s.cfg
      payload := if drawsPayload k then s.drawPayload.payload else s.payload
      draws := if drawsPayload k then s.draws + 1 else s.draws } := by
  cases k <;> rfl

@[simp] theorem fail_outcome (k : OutcomeCode) (s : State) : (s.fail k).outcome = k := by simp [fail_eq]
@[simp] theorem fail_phase (k : OutcomeCode) (s : State) : (s.fail k).phase = failPhase s.cfg := by simp [fail_eq]
@[simp] theorem fail_life (k : OutcomeCode) (s : State) : (s.fail k).life = s.life := by simp [fail_eq]
@[simp] theorem fail_pin (k : OutcomeCode) (s : State) : (s.fail k).pin = s.pin := by simp [fail_eq]
@[simp] theorem fail_maxCycles (k : OutcomeCode) (s : State) : (s.fail k).maxCycles = s.maxCycles := by
  simp [fail_eq]
@[simp] theorem fail_lastTs (k : OutcomeCode) (s : State) : (s.fail k).lastTs = s.lastTs := by simp [fail_eq]
@[simp] theorem fail_valid (k : OutcomeCode) (s : State) : (s.fail k).valid = s.valid := by simp [fail_eq]
@[simp] theorem fail_pw (k : OutcomeCode) (s : State) : (s.fail k).pw = s.pw := by simp [fail_eq]
@[simp] theorem fail_count (k : OutcomeCode) (s : State) : (s.fail k).count = s.count := by simp [fail_eq]
@[simp] theorem fail_idx (k : OutcomeCode) (s : State) : (s.fail k).idx = s.idx := by simp [fail_eq]
@[simp] theorem fail_cmd (k : OutcomeCode) (s : State) : (s.fail k).cmd = s.cmd := by simp [fail_eq]
@[simp] theorem fail_masked (k : OutcomeCode) (s : State) : (s.fail k).masked = s.masked := by simp [fail_eq]
@[simp] theorem fail_refused (k : OutcomeCode) (s : State) : (s.fail k).refused = s.refused := by simp [fail_eq]
@[simp] theorem fail_cfg (k : OutcomeCode) (s : State) : (s.fail k).cfg = s.cfg := by simp [fail_eq]
@[simp] theorem fail_calls (k : OutcomeCode) (s : State) : (s.fail k).calls = s.calls := by simp [fail_eq]
@[simp] theorem fail_reentry (k : OutcomeCode) (s : State) : (s.fail k).reentry = s.reentry := by simp [fail_eq]
@[simp] theorem fail_readAnswers (k : OutcomeCode) (s : State) : (s.fail k).readAnswers = s.readAnswers := by
  simp [fail_eq]
@[simp] theorem fail_clockAnswers (k : OutcomeCode) (s : State) : (s.fail k).clockAnswers = s.clockAnswers := by
  simp [fail_eq]
@[simp] theorem fail_trace (k : OutcomeCode) (s : State) : (s.fail k).trace = s.trace := by simp [fail_eq]
@[simp] theorem fail_responses (k : OutcomeCode) (s : State) : (s.fail k).responses = s.responses := by
  simp [fail_eq]

theorem failPhase_cases (c : Config) :
    failPhase c = .failReport ∧ c.debugEnabled = true ∨ failPhase c = .finish ∧ c.debugEnabled = false := by
  unfold failPhase
  cases c.debugEnabled <;> simp

/-! ## Pulses (R155, R170, R210) -/

/-- A poll counts on, or its Pulse returns a width or the timeout sentinel (R210). -/
theorem pollResult_cases (l a : Level) (c m : Nat) :
    a = l ∧ c < m ∧ pollResult l a c m = none ∨
    a = l ∧ m ≤ c ∧ pollResult l a c m = some 0 ∨
    a ≠ l ∧ pollResult l a c m = some c := by
  unfold pollResult
  by_cases h : a = l
  · by_cases h' : m ≤ c
    · simp [h, h']
    · simp [h, h', Nat.not_le.mp h']
  · simp [h]

/-- What the return of a Pulse can do, phase by phase (R155, R170). -/
theorem pulseDone_cases (w : Nat) (s : State) :
    (s.phase = .ackLow ∧ w = 0 ∧ s.pulseDone w = s.fail .startFail) ∨
    (s.phase = .ackLow ∧ w ≠ 0 ∧ s.pulseDone w = { s with phase := .ackHigh, count := 0 }) ∨
    (s.phase = .ackHigh ∧ w = 0 ∧ s.pulseDone w = s.fail .startFail) ∨
    (s.phase = .ackHigh ∧ w ≠ 0 ∧ s.pulseDone w = { s with phase := .capMask }) ∨
    (∃ h : s.idx.val + 1 < 80, s.phase = .capture ∧
      s.pulseDone w = { s with pw := s.pw.set s.idx.val w s.idx.isLt, idx := ⟨s.idx.val + 1, h⟩, count := 0 }) ∨
    (¬ s.idx.val + 1 < 80 ∧ s.phase = .capture ∧
      s.pulseDone w = { s with
        pw := s.pw.set s.idx.val w s.idx.isLt, idx := Config.freeIdx s.draws, draws := s.draws + 1
        count := 0, phase := .capUnmask }) ∨
    (s.phase ≠ .ackLow ∧ s.phase ≠ .ackHigh ∧ s.phase ≠ .capture ∧ s.pulseDone w = s) := by
  unfold State.pulseDone
  by_cases hw : w = 0 <;> by_cases hi : s.idx.val + 1 < 80 <;> cases hp : s.phase <;>
    simp [hw, hi, State.nextPulse]

/-- What one poll can do (R210): it counts on, or its Pulse returns 0 or the counter. -/
theorem poll_cases (l : Level) (s : State) :
    (l = s.awaited ∧ s.count < s.maxCycles ∧ s.poll l = { s with count := s.count + 1 }) ∨
    (l = s.awaited ∧ s.maxCycles ≤ s.count ∧ s.poll l = s.pulseDone 0) ∨
    (l ≠ s.awaited ∧ s.poll l = s.pulseDone s.count) := by
  unfold State.poll
  obtain ⟨ha, hc, h⟩ | ⟨ha, hc, h⟩ | ⟨ha, h⟩ := pollResult_cases s.awaited l s.count s.maxCycles
  · exact .inl ⟨ha, hc, by rw [h]⟩
  · exact .inr (.inl ⟨ha, hc, by rw [h]⟩)
  · exact .inr (.inr ⟨ha, by rw [h]⟩)

end Sys2Proof.Machine
end

