-- ==== Sys2Proof/Laws/PerInstr.lean ====
section
/-! SUPPORT. Laws said of every instruction as syntax, one lemma per constructor: the opcode alone fixes an instruction's length and its interface (R72, R73, R77; operand bytes logs 1 and 2). -/

namespace Sys2Proof.Laws

/-- Bytes of an instruction by its opcode: the code, and the operands it fixes, a pin taking `k` bytes. -/
def lengthOf (k : Nat) (op : Byte) : Nat :=
  if op = 0x01 then 1 + k + 4
  else if op = 0x80 ∨ op = 0x81 then 1 + k + 1
  else if op = 0x82 then 1 + k
  else if op = 0x84 ∨ op = 0x85 then 1 + 4
  else if op = 0x88 then 1 + 1
  else 1

/-- The opcode fixes the length (R72, R77) and the interface (R73, R77). -/
def FixedLength.Statement (i : Instr) : Prop :=
  (∀ k, (encode k i).length = lengthOf k (opcode i)) ∧ (i.isCommand = true ↔ (opcode i).toNat < 0x80)

theorem FixedLength.construct (pin : PinId) (cpu : Word32) : FixedLength.Statement (.construct pin cpu) :=
  ⟨fun _ => by simp +arith [encode, operandBytes, opcode, lengthOf], iff_of_true rfl (of_decide_eq_true rfl)⟩

theorem FixedLength.initializeCmd : FixedLength.Statement .initializeCmd :=
  ⟨fun _ => rfl, iff_of_true rfl (of_decide_eq_true rfl)⟩

theorem FixedLength.available : FixedLength.Statement .available :=
  ⟨fun _ => rfl, iff_of_true rfl (of_decide_eq_true rfl)⟩

theorem FixedLength.readTemperature : FixedLength.Statement .readTemperature :=
  ⟨fun _ => rfl, iff_of_true rfl (of_decide_eq_true rfl)⟩

theorem FixedLength.readHumidity : FixedLength.Statement .readHumidity :=
  ⟨fun _ => rfl, iff_of_true rfl (of_decide_eq_true rfl)⟩

theorem FixedLength.setMode (pin : PinId) (mode : BitVec 2) : FixedLength.Statement (.setMode pin mode) :=
  ⟨fun _ => by simp +arith [encode, operandBytes, opcode, lengthOf], iff_of_false Bool.false_ne_true (of_decide_eq_false rfl)⟩

theorem FixedLength.write (pin : PinId) (level : Level) : FixedLength.Statement (.write pin level) :=
  ⟨fun _ => by simp +arith [encode, operandBytes, opcode, lengthOf], iff_of_false Bool.false_ne_true (of_decide_eq_false rfl)⟩

theorem FixedLength.read (pin : PinId) : FixedLength.Statement (.read pin) :=
  ⟨fun _ => by simp +arith [encode, operandBytes, opcode, lengthOf], iff_of_false Bool.false_ne_true (of_decide_eq_false rfl)⟩

theorem FixedLength.nowMs : FixedLength.Statement .nowMs :=
  ⟨fun _ => rfl, iff_of_false Bool.false_ne_true (of_decide_eq_false rfl)⟩

theorem FixedLength.delayMs (n : Word32) : FixedLength.Statement (.delayMs n) :=
  ⟨fun _ => rfl, iff_of_false Bool.false_ne_true (of_decide_eq_false rfl)⟩

theorem FixedLength.delayUs (n : Word32) : FixedLength.Statement (.delayUs n) :=
  ⟨fun _ => rfl, iff_of_false Bool.false_ne_true (of_decide_eq_false rfl)⟩

theorem FixedLength.preemptOff : FixedLength.Statement .preemptOff :=
  ⟨fun _ => rfl, iff_of_false Bool.false_ne_true (of_decide_eq_false rfl)⟩

theorem FixedLength.preemptOn : FixedLength.Statement .preemptOn :=
  ⟨fun _ => rfl, iff_of_false Bool.false_ne_true (of_decide_eq_false rfl)⟩

theorem FixedLength.debug (code : Byte) : FixedLength.Statement (.debug code) :=
  ⟨fun _ => rfl, iff_of_false Bool.false_ne_true (of_decide_eq_false rfl)⟩

end Sys2Proof.Laws
end

