-- ==== Sys2Proof/Laws/Step.lean ====
section
/-! SUPPORT. What one step can do, said once: a command of the caller, or the step of the phase. -/

namespace Sys2Proof.Machine

/-! ## Commands -/

/-- The effect of a command once it is admitted. -/
def commandEffect (i : Instr) (s : State) : State :=
  match i with
  | .construct pin cpu => { s with
      pin := pin, maxCycles := ceiling s.cfg.timeoutUs cpu, valid := false
      masked := false, phase := .idle, life := .built }
  | .initializeCmd => s.goto .initMode
  | .available => s.goto .availQuery
  | .readTemperature => { s with cmd := .readTemperature, phase := .runAvail }
  | .readHumidity => { s with cmd := .readHumidity, phase := .runAvail }
  | _ => s

/-- When a command is admitted and accepted (R100, R109). -/
def commandAccepted (i : Instr) (s : State) : Bool :=
  match i with
  | .construct _ cpu => admitsConstruct s && ceilingFits s.cfg cpu
  | .initializeCmd => admitsInit s
  | .available => admitsQuery s
  | .readTemperature => admitsQuery s
  | .readHumidity => admitsQuery s
  | _ => false

/-- Every command is its effect where it is accepted and a refusal where it is not. -/
theorem exec_command {i : Instr} (h : i.isCommand = true) (s : State) :
    exec i s = command (commandAccepted i s) (commandEffect i) s := by
  cases i <;> first | rfl | cases h

/-! ## The step of a phase -/

/-- The state after the step of the phase `s` is in (R28), no command being taken. -/
def phaseNext (s : State) : State :=
  match s.phase with
  | .idle => s
  | .runAvail => (s.takeClock.emit (.nowMs s.nextClock)).afterNowMs s.nextClock
  | .runStamp => (s.takeClock.emit (.nowMs s.nextClock)).afterNowMs s.nextClock
  | .stIdleHigh => (s.emit (.write s.pin .high)).goto .stIdleWait
  | .stIdleWait => (s.emit (.delayMs s.cfg.idleHighMs)).goto .stOutput
  | .stOutput => (s.emit (.setMode s.pin .output)).goto .stWakeLow
  | .stWakeLow => (s.emit (.write s.pin .low)).goto .stWakeWait
  | .stWakeWait => (s.emit (.delayMs s.cfg.wakeLowMs)).goto .stEndHigh
  | .stEndHigh => (s.emit (.write s.pin .high)).goto .stEndWait
  | .stEndWait => (s.emit (.delayUs s.cfg.endHighUs)).goto .stRelease
  | .stRelease => (s.emit (.setMode s.pin s.cfg.releaseMode)).goto .stSettle
  | .stSettle => { s.emit (.delayUs s.cfg.settleUs) with count := 0, phase := .ackLow }
  | .ackLow => (s.takeLevel.emit (.read s.pin s.nextLevel)).poll s.nextLevel
  | .ackHigh => (s.takeLevel.emit (.read s.pin s.nextLevel)).poll s.nextLevel
  | .capMask => { s.emit .preemptOff with masked := true, idx := 0, count := 0, phase := .capture }
  | .capture => (s.takeLevel.emit (.read s.pin s.nextLevel)).poll s.nextLevel
  | .capUnmask => { s.emit .preemptOn with masked := false, phase := .decode }
  | .decode => s.decodeStep
  | .checksum => s.checksumStep
  | .failReport => (s.emit (.debug s.outcome.code)).goto .finish
  | .finish => s.finishRun
  | .availQuery => (s.takeClock.emit (.nowMs s.nextClock)).afterNowMs s.nextClock
  | .initMode =>
    { s.emit (.setMode s.pin .inputPullup) with
      lastTs := elapsed s.cfg.msBits 0 s.cfg.minIntervalMs, life := .ready, phase := .idle }

/-- The request of the phase, executed, is the step of the phase. -/
theorem exec_phaseRequest {s : State} {i : Instr} (hr : s.refused = false) (hi : phaseRequest s = some i) :
    exec i s = .next (phaseNext s) := by
  obtain ⟨life, pin, maxCycles, lastTs, valid, payload, pw, phase, count, idx, cmd, outcome, masked, refused,
    cfg, calls, reentry, readAnswers, clockAnswers, draws, trace, responses⟩ := s
  cases hr
  cases phase <;> cases hi <;>
    simp [exec, execNowMs, execWrite, execDelayMs, execDelayUs, execSetMode, execRead, execPreemptOff,
      execPreemptOn, execDebug, live, completes, phaseRequest, phaseNext, State.afterWrite, State.afterDelayMs,
      State.afterDelayUs, State.afterSetMode, State.goto, State.emit, State.takeLevel, State.takeClock,
      Mode.ofCode_code]

/-- The work of a phase is its request, or an internal step. -/
theorem phaseWork_eq (s : State) :
    (∃ i, phaseRequest s = some i ∧ phaseWork s = .request i) ∨
    phaseRequest s = none ∧ phaseWork s = .internal := by
  unfold phaseWork
  cases phaseRequest s <;> simp

/-- No command is taken in this state. -/
abbrev State.noCommand (s : State) : Prop := fetch s = phaseWork s

theorem noCommand_of_waits {s : State} (hp : s.phase ≠ .idle) (hr : s.reentry ≠ some 0) : s.noCommand := by
  simp [State.noCommand, fetch, State.listens, hp, hr]

/-- Outside IDLE a step in which no command is taken is the step of the phase. -/
theorem step_phase {s : State} (hr : s.refused = false) (hp : s.phase ≠ .idle) (hc : s.noCommand) :
    step s = .next (phaseNext s.tick) := by
  have hf : fetch s = phaseWork s := hc
  unfold step cycle
  rw [hf]
  obtain ⟨i, hi, hw⟩ | ⟨hi, hw⟩ := phaseWork_eq s
  · rw [hw]
    simp only [hr, Bool.false_eq_true, if_false]
    exact exec_phaseRequest (s := s.tick) hr hi
  · rw [hw]
    simp only [hr, hp, Bool.false_eq_true, if_false, Host.Outcome.next.injEq]
    revert hi
    unfold phaseRequest State.internalStep phaseNext
    simp only [State.tick_phase]
    cases hph : s.phase <;> simp_all

/-- What a step can take: a command, a code that is none, or neither. -/
theorem fetch_cases (s : State) :
    (∃ i rest, s.listens = true ∧ decodeCommand s.cfg.pinBytes s.calls = .ok (i, rest) ∧ fetch s = .command i rest) ∨
    (∃ r, s.listens = true ∧ decodeCommand s.cfg.pinBytes s.calls = .error r ∧ fetch s = .unassigned) ∨
    s.noCommand := by
  unfold State.noCommand fetch
  cases hl : s.listens
  · simp
  · cases hd : decodeCommand s.cfg.pinBytes s.calls with
    | error r => cases r <;> simp
    | ok p => obtain ⟨i, rest⟩ := p; simp

theorem decodeCommand_isCommand {k : Nat} {bs : List Byte} {i : Instr} {rest : List Byte}
    (h : decodeCommand k bs = .ok (i, rest)) : i.isCommand = true := by
  revert h
  unfold decodeCommand
  split
  · intro h; cases h
  · split
    · intro h
      obtain ⟨p, bs, -, -, hc⟩ := withOperand_eq_ok h
      obtain ⟨c, r, -, -, hi⟩ := withOperand_eq_ok hc
      cases hi
      rfl
    split
    · rintro ⟨⟩; rfl
    split
    · rintro ⟨⟩; rfl
    split
    · rintro ⟨⟩; rfl
    split
    · rintro ⟨⟩; rfl
    · intro h; cases h

/-- What one step can do: everything a proof over steps needs. -/
theorem step_cases {s t : State} (h : step s = .next t) :
    s.refused = false ∧
    ((∃ i rest, i.isCommand = true ∧ s.listens = true ∧ decodeCommand s.cfg.pinBytes s.calls = .ok (i, rest) ∧
        commandAccepted i { s with calls := rest } = true ∧ t = commandEffect i { s with calls := rest }) ∨
      (∃ rest, t = State.refuse { s with calls := rest }) ∨
      (s.phase = .idle ∧ t = s) ∨
      (s.phase ≠ .idle ∧ t = phaseNext s.tick)) := by
  have hr : s.refused = false := by
    by_contra hn
    simp only [Bool.not_eq_false] at hn
    simp [step, cycle, hn] at h
  refine ⟨hr, ?_⟩
  obtain ⟨i, rest, hl, hd, hf⟩ | ⟨r, -, -, hf⟩ | hc := fetch_cases s
  · have hi := decodeCommand_isCommand hd
    have h' : exec i { s with calls := rest } = .next t := by
      unfold step cycle at h
      rw [if_neg (by simp [hr]), hf] at h
      exact h
    rw [exec_command hi, command_next] at h'
    obtain ⟨-, ⟨ha, ht⟩ | ⟨-, ht⟩⟩ := h'
    · exact .inl ⟨i, rest, hi, hl, hd, ha, ht.symm⟩
    · exact .inr (.inl ⟨rest, ht.symm⟩)
  · simp only [step, cycle, hr, hf, Bool.false_eq_true, if_false, Host.Outcome.next.injEq] at h
    exact .inr (.inl ⟨s.calls, h.symm⟩)
  · by_cases hp : s.phase = .idle
    · have hw : phaseWork s = .internal := by simp [phaseWork, phaseRequest, hp]
      have hf : fetch s = .internal := (show fetch s = phaseWork s from hc).trans hw
      simp only [step, cycle, hr, hf, hp, Bool.false_eq_true, if_false, if_true,
        Host.Outcome.next.injEq] at h
      exact .inr (.inr (.inl ⟨hp, h.symm⟩))
    · rw [step_phase hr hp hc] at h
      cases h
      exact .inr (.inr (.inr ⟨hp, rfl⟩))

end Sys2Proof.Machine
end

