-- ==== Sys2Proof/Laws/Runs.lean ====
section
/-! SUPPORT. Runs of several steps: how they begin, continue and join, and a step of a caller that waits. -/

namespace Sys2Proof.Machine

@[simp] theorem steps_zero {s t : State} : Steps 0 s t ↔ s = t := by
  constructor
  · intro h
    cases h
    rfl
  · rintro rfl
    rfl

theorem steps_succ {n : Nat} {s t u : State} (h : step s = .next t) (hr : Steps n t u) : Steps (n + 1) s u := by
  have h' : Sys2Proof.core.step s = .next t := h
  unfold Steps
  simp only [Host.Core.run]
  rw [h']
  exact hr

theorem steps_one {s t : State} (h : step s = .next t) : Steps 1 s t := steps_succ h (steps_zero.2 rfl)

/-- A run is a first step and the rest. -/
theorem steps_succ_inv {n : Nat} {s u : State} (h : Steps (n + 1) s u) :
    ∃ t, step s = .next t ∧ Steps n t u := by
  unfold Steps at h
  simp only [Host.Core.run] at h
  cases hs : Sys2Proof.core.step s with
  | next t => rw [hs] at h; exact ⟨t, hs, h⟩
  | fault r => rw [hs] at h; cases h
  | refused r => rw [hs] at h; cases h

theorem steps_add {m n : Nat} {s t u : State} (h1 : Steps m s t) (h2 : Steps n t u) : Steps (m + n) s u := by
  induction m generalizing s with
  | zero =>
    obtain rfl := steps_zero.1 h1
    simpa using h2
  | succ m ih =>
    obtain ⟨v, hv, hr⟩ := steps_succ_inv h1
    have := steps_succ hv (ih hr)
    rwa [show m + n + 1 = m + 1 + n by omega] at this

/-- `n` steps outside IDLE pass for a caller that does not wait (log 11). -/
abbrev State.tickBy (n : Nat) (s : State) : State := { s with reentry := s.reentry.map (· - n) }

@[simp] theorem State.tickBy_zero (s : State) : s.tickBy 0 = s := by
  obtain ⟨⟩ := s
  simp [State.tickBy]

theorem State.tick_eq (s : State) : s.tick = s.tickBy 1 := rfl

@[simp] theorem State.tickBy_tickBy (m n : Nat) (s : State) : (s.tickBy m).tickBy n = s.tickBy (m + n) := by
  simp [State.tickBy, Option.map_map, Function.comp_def, Nat.sub_sub]

/-- Quiet for longer is quiet for shorter. -/
theorem State.quietFor.mono {m n : Nat} {s : State} (h : s.quietFor n) (hm : m ≤ n) : s.quietFor m := by
  obtain h | h := h
  · refine .inl ?_
    cases hr : s.reentry with
    | none => rfl
    | some r => simp [hr] at h; simp; omega
  · exact .inr h

/-- Quietness depends on the countdown, the commands and the width of a pin alone. -/
theorem State.quietFor.congr {n : Nat} {s t : State} (h : s.quietFor n) (hr : t.reentry = s.reentry)
    (hc : t.calls = s.calls) (hk : t.cfg.pinBytes = s.cfg.pinBytes) : t.quietFor n := by
  unfold State.quietFor
  rw [hr, hc, hk]
  exact h

/-- After `m` of `m + n` quiet steps `n` are left. -/
theorem State.quietFor.tickBy {m n : Nat} {s : State} (h : s.quietFor (m + n)) : (s.tickBy m).quietFor n := by
  obtain h | h := h
  · refine .inl ?_
    cases hr : s.reentry with
    | none => simp [hr]
    | some r => simp [hr] at h; simp [hr]; omega
  · exact .inr h

/-- In a quiet step no command is taken. -/
theorem State.quietFor.noCommand {s : State} (h : s.quietFor 1) (hp : s.phase ≠ .idle) : s.noCommand := by
  obtain h | h := h
  · refine noCommand_of_waits hp ?_
    intro hr
    simp [hr] at h
  · unfold State.noCommand fetch
    split
    · rw [h]
    · rfl

/-- The step of the phase, where no command is issued (R28). -/
theorem step_quiet {s : State} (hr : s.refused = false) (hp : s.phase ≠ .idle) (hq : s.quietFor 1) :
    step s = .next (phaseNext (s.tickBy 1)) :=
  step_phase hr hp (hq.noCommand hp)

/-- The command the caller's bytes decode to is executed at IDLE. -/
theorem step_command {s : State} {i : Instr} {rest : List Byte} (hr : s.refused = false) (hp : s.phase = .idle)
    (hd : decodeCommand s.cfg.pinBytes s.calls = .ok (i, rest)) : step s = exec i { s with calls := rest } := by
  have hf : fetch s = .command i rest := by simp [fetch, State.listens, hd, hp]
  unfold step cycle
  rw [if_neg (by simp [hr]), hf]

/-- One step of a Pulse, where no command is issued and an answer is listed (R210). -/
theorem step_poll {s : State} {l : Level} {ls : List Level} (hr : s.refused = false)
    (hp : s.phase.polls = true) (hq : s.quietFor 1) (ha : s.readAnswers = l :: ls) :
    step s = .next (State.poll l { s.tickBy 1 with
      readAnswers := ls, trace := s.trace ++ [.read s.pin l] }) := by
  rw [step_quiet hr (by rintro h; simp [h, Phase.polls] at hp) hq]
  have hn : (s.tickBy 1).nextLevel = l := by simp [State.nextLevel, ha]
  have ht : (s.tickBy 1).takeLevel = { s.tickBy 1 with readAnswers := ls } := by simp [State.takeLevel, ha]
  unfold phaseNext
  cases h : s.phase <;> simp [h, Phase.polls] at hp <;> simp [hn, ht, State.emit, h]

/-- The bracket of a longer trace (R172). -/
theorem bracketOf_append (tr : List Event) (e : Event) :
    bracketOf (tr ++ [e]) = bracketScan (bracketOf tr) e := by
  simp [bracketOf]

end Sys2Proof.Machine
end

