-- ==== Sys2Proof/Machine/Text.lean ====
section
/-! DEFINITION. The textual forms of spec/30_encoding.md: command syntax (R85), the pseudo-command `read_both` (R86) and trace syntax (R87). Source text is a list of characters (log 19). No step depends on this file. -/

namespace Sys2Proof.Machine

/-! ## Command syntax (R85, R86) -/

/-- A source character that only separates tokens (log 19). -/
def isBlank (c : Char) : Bool := c = ' ' || c = '\t' || c = '\r'

/-- Closes the token being read, if it is not empty. -/
def closeToken (cur : List Char) (done : List (List Char)) : List (List Char) :=
  if cur.isEmpty then done else cur :: done

/-- The tokens of a line: words, and each comma by itself. -/
def tokens (line : List Char) : List (List Char) :=
  let read := line.foldr (init := (([] : List Char), ([] : List (List Char)))) fun c acc =>
    if isBlank c then ([], closeToken acc.1 acc.2)
    else if c = ',' then ([], [','] :: closeToken acc.1 acc.2)
    else (c :: acc.1, acc.2)
  closeToken read.1 read.2

/-- The lines of a text. -/
def lines (text : List Char) : List (List Char) :=
  let read := text.foldr (init := (([] : List Char), ([] : List (List Char)))) fun c acc =>
    if c = '\n' then ([], acc.1 :: acc.2) else (c :: acc.1, acc.2)
  read.1 :: read.2

/-- The value of a digit. -/
def digit (c : Char) : Option Nat :=
  let n := c.toNat
  if 48 ≤ n ∧ n ≤ 57 then some (n - 48)
  else if 97 ≤ n ∧ n ≤ 102 then some (n - 87)
  else if 65 ≤ n ∧ n ≤ 70 then some (n - 55)
  else none

/-- A non-empty numeral in a base. -/
def numeral (base : Nat) (ds : List Char) : Option Nat :=
  if ds.isEmpty then none
  else ds.foldl (init := some 0) fun acc c =>
    match acc, digit c with
    | some v, some d => if d < base then some (v * base + d) else none
    | _, _ => none

/-- A number (R7): `0x` hexadecimal, `0b` binary, otherwise decimal. -/
def number (ds : List Char) : Option Nat :=
  match ds with
  | '0' :: 'x' :: rest => numeral 16 rest
  | '0' :: 'b' :: rest => numeral 2 rest
  | _ => numeral 10 ds

/-- The commands of one line (R85, R86): what stands before `#`, none for an empty line. `cpu` is a `u32` (R100); a pin is
any number (DESIGN CHOICE, log 19: R6 leaves `PinId` open). -/
def assembleLine (line : List Char) : Option (List Instr) :=
  match tokens (line.takeWhile (· ≠ '#')) with
  | [] => some []
  | [word] =>
    if word = ['i', 'n', 'i', 't', 'i', 'a', 'l', 'i', 'z', 'e'] then some [.initializeCmd]
    else if word = ['a', 'v', 'a', 'i', 'l', 'a', 'b', 'l', 'e'] then some [.available]
    else if word = ['r', 'e', 'a', 'd', '_', 't', 'e', 'm', 'p', 'e', 'r', 'a', 't', 'u', 'r', 'e'] then
      some [.readTemperature]
    else if word = ['r', 'e', 'a', 'd', '_', 'h', 'u', 'm', 'i', 'd', 'i', 't', 'y'] then
      some [.readHumidity]
    else if word = ['r', 'e', 'a', 'd', '_', 'b', 'o', 't', 'h'] then some readBoth
    else none
  | [word, pin, [','], cpu] =>
    if word = ['c', 'o', 'n', 's', 't', 'r', 'u', 'c', 't'] then
      match number pin, number cpu with
      | some p, some c => if c < 2 ^ 32 then some [.construct ⟨p⟩ (BitVec.ofNat 32 c)] else none
      | _, _ => none
    else none
  | _ => none

/-- The commands of a text, one command a line (R85). -/
def assemble (text : List Char) : Option (List Instr) :=
  (lines text).foldr (init := some []) fun line acc =>
    match assembleLine line, acc with
    | some is, some rest => some (is ++ rest)
    | _, _ => none

/-- The bytes of a program on the command interface (R72, R73). DESIGN CHOICE (log 19), unsafe: R85 does not bound a pin's
number in the text; one that does not fit `pinBytes` loses its high bytes here, so the bytes name another pin. -/
def programBytes (pinBytes : Nat) (is : List Instr) : List Byte := is.flatMap (encode pinBytes)

/-! ## Trace syntax (R87) -/

/-- A level's name (R12). -/
def Level.text : Level → String
  | .low => "LOW"
  | .high => "HIGH"

/-- A mode's name (R12). -/
def Mode.text : Mode → String
  | .input => "INPUT"
  | .inputPullup => "INPUT_PULLUP"
  | .output => "OUTPUT"

/-- An outcome's name (R301). -/
def OutcomeCode.text : OutcomeCode → String
  | .ok => "OK"
  | .startFail => "START_FAIL"
  | .captureTimeout => "CAPTURE_TIMEOUT"
  | .checksumFail => "CHECKSUM_FAIL"
  | .cached => "CACHED"

/-- A pin's name: the host's number for it. -/
def pinText (p : PinId) : String := toString p.id

/-- An event as R87 writes it. -/
def Event.text : Event → String
  | .setMode pin mode => "SET_MODE " ++ pinText pin ++ ", " ++ Mode.text mode
  | .write pin level => "WRITE " ++ pinText pin ++ ", " ++ Level.text level
  | .read pin answer => "READ " ++ pinText pin ++ " -> " ++ Level.text answer
  | .nowMs answer => "NOW_MS -> " ++ toString answer
  | .delayMs n => "DELAY_MS " ++ toString n.toNat
  | .delayUs n => "DELAY_US " ++ toString n.toNat
  | .preemptOff => "PREEMPT_OFF"
  | .preemptOn => "PREEMPT_ON"
  | .debug code => "DEBUG " ++ toString code.toNat
  | .runEnd outcome => "RUN_END " ++ OutcomeCode.text outcome

/-- The event is a poll (R13). -/
def Event.isPoll : Event → Bool
  | .read _ _ => true
  | _ => false

/-- A trace with each run of identical polls counted (R87). -/
def condense (trace : List Event) : List (Event × Nat) :=
  trace.foldr (init := []) fun e acc =>
    match acc with
    | (f, k) :: rest => if e.isPoll ∧ e = f then (e, k + 1) :: rest else (e, 1) :: acc
    | [] => [(e, 1)]

/-- A trace as R87 writes it, one event or run of polls each. -/
def traceText (trace : List Event) : List String :=
  (condense trace).map fun ek =>
    if ek.2 = 1 then ek.1.text else ek.1.text ++ " ×" ++ toString ek.2

end Sys2Proof.Machine
end

