-- ==== Sys2Proof/Tests/Slice0.lean ====
section
/-! SUPPORT. The model's own tests. Expected results are worked from the spec: the code tables R70 to R77 and R301, and the vectors V-… of spec/95_test_vectors.md. Then one witness per statement with hypotheses: concrete states and operands that meet them. -/

set_option Elab.async false

namespace Sys2Proof.Tests

open Sys2Proof Sys2Proof.Machine

/-! ## Small states -/

/-- The next state of an answer. -/
def nextOf : Answer → Option State
  | .next t => some t
  | .fault _ => none
  | .refused _ => none

/-- A READY engine in IDLE on pin 2, ceiling 3, stamped at 1000, with the payload of V-C8. -/
def ready : State :=
  { State.reset with
    life := .ready, pin := ⟨2⟩, maxCycles := 3, lastTs := 1000, payload := #v[0x02, 0x8D, 0x00, 0xE7, 0x76] }

/-- The same engine in a phase. -/
def inPhase (p : Phase) : State := { ready with phase := p }

/-- A BUILT engine on pin 2. -/
def built : State := { State.reset with life := .built, pin := ⟨2⟩, maxCycles := 3 }

/-- A refused engine. -/
def stuck : State := { ready with refused := true }

/-- 80 widths: `a`, `b` for the first bit, 40 and 20 for every other. -/
def widths (a b : Nat) : Widths :=
  ((Vector.ofFn fun j : Fin 80 => if j.val % 2 = 0 then 40 else 20).set 0 a).set 1 b

/-! ## Well-formed instructions (R71, R301) -/

theorem test_wellFormed_refuses_reserved_mode :
    wellFormed 4 (.setMode ⟨5⟩ 0b11) = false ∧ wellFormed 4 (.setMode ⟨5⟩ 0b10) = true := by decide

theorem test_wellFormed_refuses_unused_outcome_code :
    wellFormed 4 (.debug 5) = false ∧ wellFormed 4 (.debug 4) = true := by decide

theorem test_wellFormed_refuses_unfit_pins :
    wellFormed 4 (.construct ⟨0x100000000⟩ 1) = false ∧ wellFormed 1 (.setMode ⟨256⟩ 0b10) = false ∧
    wellFormed 1 (.write ⟨256⟩ .low) = false ∧ wellFormed 1 (.read ⟨256⟩) = false ∧
    wellFormed 1 (.read ⟨255⟩) = true := by decide

theorem test_decoder_refuses_ill_formed_terms :
    decode 4 (encode 4 (.setMode ⟨5⟩ 0b11)) = .error (.reservedMode 3) ∧
    decode 4 (encode 4 (.debug 5)) = .error (.badOutcome 5) := ⟨rfl, rfl⟩

/-! ## Decoding (R70 to R78; operand bytes log 1) -/

theorem test_decode_construct :
    decode 4 [0b00000001, 2, 0, 0, 0, 0x10, 0, 0, 0, 0xAA] = .ok (.construct ⟨2⟩ 16, [0xAA]) := rfl

theorem test_decode_cmd0 :
    decode 4 [0b00000010] = .ok (.initializeCmd, []) ∧ decode 4 [0b00000011] = .ok (.available, []) ∧
    decode 4 [0b00000100] = .ok (.readTemperature, []) ∧ decode 4 [0b00000101] = .ok (.readHumidity, []) :=
  ⟨rfl, rfl, rfl, rfl⟩

theorem test_decode_pin_requests :
    decode 4 [0b10000000, 5, 0, 0, 0, 0b01] = .ok (.setMode ⟨5⟩ 0b01, []) ∧
    decode 4 [0b10000001, 5, 0, 0, 0, 1] = .ok (.write ⟨5⟩ .high, []) ∧
    decode 4 [0b10000001, 5, 0, 0, 0, 0] = .ok (.write ⟨5⟩ .low, []) ∧
    decode 4 [0b10000010, 5, 1, 0, 0] = .ok (.read ⟨261⟩, []) := ⟨rfl, rfl, rfl, rfl⟩

/-- The bytes of a pin are a parameter (R6; log 2). -/
theorem test_decode_other_pin_widths :
    decode 1 [0x01, 2, 0x10, 0, 0, 0] = .ok (.construct ⟨2⟩ 16, []) ∧
    decode 5 [0x82, 0, 0, 0, 0, 1, 0xAA] = .ok (.read ⟨0x100000000⟩, [0xAA]) ∧
    decode 0 [0x81, 1] = .ok (.write ⟨0⟩ .high, []) := ⟨rfl, rfl, rfl⟩

theorem test_decode_time_requests :
    decode 4 [0b10000011] = .ok (.nowMs, []) ∧ decode 4 [0b10000100, 0xD0, 0x07, 0, 0] = .ok (.delayMs 2000, []) ∧
    decode 4 [0b10000101, 40, 0, 0, 0] = .ok (.delayUs 40, []) := ⟨rfl, rfl, rfl⟩

theorem test_decode_other_requests :
    decode 4 [0b10000110] = .ok (.preemptOff, []) ∧ decode 4 [0b10000111] = .ok (.preemptOn, []) ∧
    decode 4 [0b10001000, 3] = .ok (.debug 3, []) := ⟨rfl, rfl, rfl⟩

/-- R74 and R78: codes on either side of the assigned ranges. -/
theorem test_decode_unassigned :
    decode 4 [0x00] = .error (.unassignedOpcode 0x00) ∧ decode 4 [0x06] = .error (.unassignedOpcode 0x06) ∧
    decode 4 [0x7F] = .error (.unassignedOpcode 0x7F) ∧ decode 4 [0x89] = .error (.unassignedOpcode 0x89) ∧
    decode 4 [0xF0] = .error (.unassignedOpcode 0xF0) ∧
    decodeCommand 4 [0x83] = .error (.unassignedOpcode 0x83) := ⟨rfl, rfl, rfl, rfl, rfl, rfl⟩

theorem test_decode_bad_operands :
    decode 4 [0x80, 5, 0, 0, 0, 0b100] = .error (.reservedMode 4) ∧
    decode 4 [0x81, 5, 0, 0, 0, 2] = .error (.badLevel 2) ∧ decode 4 [0x01, 2, 0, 0, 0, 16] = .error .truncated ∧
    decode 4 [] = .error .truncated := ⟨rfl, rfl, rfl, rfl⟩

/-- Phase codes at both ends of R28's table, outcome codes of R301, trace tags of R78. -/
theorem test_codes :
    Phase.idle.code = 0x00 ∧ Phase.stSettle.code = 0x0B ∧ Phase.initMode.code = 0x16 ∧
    OutcomeCode.checksumFail.code = 3 ∧ OutcomeCode.cached.code = 4 ∧ OutcomeCode.ofCode 5 = none ∧
    (Event.runEnd .cached).tag = 0xF0 ∧ (Event.debug 1).tag = opcode (.debug 1) := by decide

/-! ## Reset and commands (V-K, V-I, V-A, V-X) -/

theorem test_reset : State.reset.life = .unbuilt ∧ State.reset.refused = false ∧ State.reset.trace = [] := by
  decide

/-- V-K1. -/
theorem test_construct :
    (nextOf (exec (.construct ⟨2⟩ 16) State.reset)).map
      (fun t => (t.pin, t.maxCycles, t.valid, t.life, t.trace)) =
      some (⟨2⟩, 16000, false, .built, []) := by decide

/-- V-K3, V-K4, V-K5: the largest accepted product, the smallest refused, a second construction. -/
theorem test_construct_bounds :
    (nextOf (exec (.construct ⟨1⟩ 4294967) State.reset)).map (·.maxCycles) = some 4294967000 ∧
    (nextOf (exec (.construct ⟨1⟩ 4294968) State.reset)).map (fun t => (t.refused, t.life)) =
      some (true, .unbuilt) ∧
    (nextOf (exec (.construct ⟨3⟩ 8) built)).map (fun t => (t.refused, t.pin)) = some (true, ⟨2⟩) := by decide

/-- V-I1: the step INIT_MODE. -/
theorem test_initialize :
    (nextOf (step { built with phase := .initMode })).map (fun t => (t.trace, t.lastTs, t.life, t.valid, t.phase)) =
      some ([.setMode ⟨2⟩ .inputPullup], 0xFFFFF830, .ready, false, .idle) := by decide

/-- V-I3; at IDLE a BUILT engine enters INIT_MODE. -/
theorem test_initialize_admission :
    (nextOf (exec .initializeCmd State.reset)).map (·.refused) = some true ∧
    (nextOf (exec .initializeCmd built)).map (fun t => (t.refused, t.phase)) = some (false, .initMode) := by decide

/-- V-A1, V-A2: AVAILABLE's answer at 2999 and 3000. -/
theorem test_available :
    (nextOf (step { inPhase .availQuery with clockAnswers := [2999] })).map (fun t => (t.responses, t.phase)) =
      some ([.bit false], .idle) ∧
    (nextOf (step { inPhase .availQuery with clockAnswers := [3000] })).map (fun t => (t.responses, t.trace)) =
      some ([.bit true], [.nowMs 3000]) := by decide

/-- V-A3 to V-A9. -/
theorem test_avail_wraps :
    avail defaultConfig 0 0xFFFFF830 = true ∧ avail defaultConfig 0xFFFFFFFF 0xFFFFF830 = false ∧
    avail defaultConfig 0xFFFFF82F 0xFFFFF830 = true ∧ avail defaultConfig 0x000006D0 0xFFFFFF00 = true ∧
    avail defaultConfig 0x000006CF 0xFFFFFF00 = false ∧ avail defaultConfig 5 5 = false ∧ avail defaultConfig 999 1000 = true := by decide

/-- R101, R108 and R100 with MS_BITS and COUNT_BITS 16 (R6, D5): the clock wraps at 65536, and the ceiling 65535 is
the largest accepted. -/
theorem test_width_parameters :
    elapsed 16 0 2000 = 63536 ∧ avail { defaultConfig with msBits := 16 } 1999 65535 = true ∧
    avail { defaultConfig with msBits := 16 } 1998 65535 = false ∧
    (nextOf (exec (.construct ⟨1⟩ 65535) { State.reset with
      cfg := { defaultConfig with countBits := 16, timeoutUs := 1 } })).map (·.maxCycles) = some 65535 ∧
    (nextOf (exec (.construct ⟨1⟩ 65536) { State.reset with
      cfg := { defaultConfig with countBits := 16, timeoutUs := 1 } })).map (·.refused) = some true := by decide

/-- V-X1, V-X2, V-X3. -/
theorem test_queries_refused :
    (nextOf (exec .available built)).map (fun t => (t.refused, t.phase)) = some (true, .idle) ∧
    (nextOf (exec .readTemperature built)).map (·.refused) = some true ∧
    (nextOf (exec .readHumidity (inPhase .capture))).map (fun t => (t.refused, t.phase)) =
      some (true, .capture) := by decide

theorem test_reads_start_a_run :
    (nextOf (exec .readTemperature ready)).map (fun t => (t.cmd, t.phase)) = some (.readTemperature, .runAvail) ∧
    (nextOf (exec .readHumidity ready)).map (fun t => (t.cmd, t.phase)) = some (.readHumidity, .runAvail) := by
  decide

/-- V-X4, V-X5, V-X6. -/
theorem test_unassigned_opcode_refused :
    (nextOf (step { ready with calls := [0x00] })).map (·.refused) = some true ∧
    (nextOf (step { ready with calls := [0x06] })).map (·.refused) = some true ∧
    nextOf (step { stuck with calls := [0x03] }) = none := by decide

/-! ## Host requests and the phases that issue them (R28, V-R, V-ST) -/

/-- R28: a request that is not the phase's is an event and nothing else (log 12). -/
theorem test_setMode :
    (nextOf (exec (.setMode ⟨2⟩ 0b10) (inPhase .stOutput))).map (fun t => (t.phase, t.trace)) =
      some (.stWakeLow, [.setMode ⟨2⟩ .output]) ∧
    (nextOf (exec (.setMode ⟨9⟩ 0b00) (inPhase .stOutput))).map (fun t => (t.phase, t.trace)) =
      some (.stOutput, [.setMode ⟨9⟩ .input]) := by decide

/-- V-ST2: RELEASE_MODE INPUT. -/
theorem test_release_mode :
    phaseRequest { inPhase .stRelease with cfg := { defaultConfig with releaseMode := .input } } =
      some (.setMode ⟨2⟩ 0b00) ∧
    phaseRequest (inPhase .stRelease) = some (.setMode ⟨2⟩ 0b01) := by decide

theorem test_write :
    (nextOf (step (inPhase .stWakeLow))).map (fun t => (t.phase, t.trace)) =
      some (.stWakeWait, [.write ⟨2⟩ .low]) ∧
    (nextOf (step (inPhase .stEndHigh))).map (fun t => (t.phase, t.trace)) =
      some (.stEndWait, [.write ⟨2⟩ .high]) := by decide

/-- V-R1 and V-R3: the availability test and the stamp, which takes the second answer. -/
theorem test_nowMs :
    (nextOf (step { inPhase .runAvail with lastTs := 0, clockAnswers := [100] })).map
      (fun t => (t.phase, t.outcome, t.trace)) = some (.finish, .cached, [.nowMs 100]) ∧
    (nextOf (step { inPhase .runStamp with valid := true, clockAnswers := [7] })).map
      (fun t => (t.lastTs, t.valid, t.phase)) = some (7, false, .stIdleHigh) := by decide

theorem test_delayMs :
    (nextOf (step (inPhase .stIdleWait))).map (fun t => (t.phase, t.trace)) = some (.stOutput, [.delayMs 10]) ∧
    (nextOf (step (inPhase .stWakeWait))).map (fun t => (t.phase, t.trace)) =
      some (.stEndHigh, [.delayMs 20]) := by decide

theorem test_delayUs :
    (nextOf (step (inPhase .stEndWait))).map (fun t => (t.phase, t.trace)) = some (.stRelease, [.delayUs 40]) ∧
    (nextOf (step { inPhase .stSettle with count := 9 })).map (fun t => (t.phase, t.count, t.trace)) =
      some (.ackLow, 0, [.delayUs 10]) := by decide

theorem test_preempt :
    (nextOf (step { inPhase .capMask with idx := 7, count := 2 })).map
      (fun t => (t.phase, t.masked, t.idx, t.count)) = some (.capture, true, 0, 0) ∧
    (nextOf (step { inPhase .capUnmask with masked := true })).map (fun t => (t.phase, t.masked)) =
      some (.decode, false) := by decide

/-- V-R6: DEBUG names the outcome, then RUN_END. -/
theorem test_debug :
    (nextOf (step { inPhase .failReport with outcome := .startFail })).map (fun t => (t.phase, t.trace)) =
      some (.finish, [.debug 1]) := by decide

/-! ## Polls (V-P, V-AK, R170, R173) -/

/-- V-P1 to V-P8 at their last poll. -/
theorem test_pulse_results :
    pollResult .low .high 2 3 = some 2 ∧ pollResult .low .high 3 3 = some 3 ∧ pollResult .low .low 3 3 = some 0 ∧
    pollResult .low .high 0 3 = some 0 ∧ pollResult .high .low 1 3 = some 1 ∧ pollResult .low .low 0 0 = some 0 ∧
    pollResult .high .high 1 1 = some 0 ∧ pollResult .high .low 1 1 = some 1 ∧
    pollResult .low .low 2 3 = none := by decide

/-- V-AK2, V-AK1: a line never pulled low fails at the first poll; a nonzero width goes on. -/
theorem test_read_acknowledge :
    (nextOf (step { inPhase .ackLow with readAnswers := [.high] })).map (fun t => (t.phase, t.outcome)) =
      some (.finish, .startFail) ∧
    (nextOf (step { inPhase .ackHigh with count := 2, readAnswers := [.low] })).map (·.phase) = some .capMask := by
  decide

/-- R170, R173: pulse 1 awaits HIGH; its width is stored, and pulse 79 ends the capture. -/
theorem test_read_capture :
    (nextOf (step { inPhase .capture with idx := 1, count := 2, readAnswers := [.low] })).map
      (fun t => (t.pw[1], t.pw[0], t.idx, t.count, t.phase)) = some (2, 0, 2, 0, .capture) ∧
    (nextOf (step { inPhase .capture with idx := 79, count := 2, readAnswers := [.low] })).map
      (fun t => (t.pw[79], t.phase)) = some (2, .capUnmask) := by decide

/-! ## Decoder, checksum, finish (V-D, V-C, V-T, V-H) -/

/-- V-D1, V-D2, V-D3, V-D8. -/
theorem test_data_bit :
    dataBit (widths 50 51) 0 = true ∧ dataBit (widths 50 50) 0 = false ∧ dataBit (widths 50 49) 0 = false ∧
    dataBit (widths 150 153) 0 = true := by decide

/-- V-D4, V-D5. -/
theorem test_packing :
    packByte (fun i => i.val = 6) = 0x02 ∧
    packByte (fun i => i.val = 0 ∨ i.val = 4 ∨ i.val = 5 ∨ i.val = 7) = 0x8D := by decide

/-- V-D7: a single width 0 is CAPTURE_TIMEOUT; without one the decoder goes on. -/
theorem test_decode_step :
    (nextOf (step { inPhase .decode with pw := widths 0 51 })).map (fun t => (t.phase, t.outcome)) =
      some (.finish, .captureTimeout) ∧
    (nextOf (step { inPhase .decode with pw := widths 50 51 })).map (fun t => (t.phase, t.payload)) =
      some (.checksum, #v[0x80, 0, 0, 0, 0]) := by decide

/-- V-C1 to V-C4 and V-C6 to V-C10. -/
theorem test_checksum :
    checksumOk #v[0x01, 0x90, 0x00, 0xC8, 0x59] = true ∧ checksumOk #v[0x01, 0x90, 0x00, 0xC8, 0x58] = false ∧
    checksumOk #v[0, 0, 0, 0, 0] = true ∧ checksumOk #v[0xFF, 0xFF, 0xFF, 0xFF, 0xFC] = true ∧
    checksumOk #v[0x90, 0x01, 0x00, 0xC8, 0x59] = true ∧ checksumOk #v[0x81, 0x10, 0x00, 0xC8, 0x59] = true ∧
    checksumOk #v[0x02, 0x8D, 0x00, 0xE7, 0x76] = true ∧ checksumOk #v[0x00, 0x00, 0x80, 0x01, 0x81] = true ∧
    checksumOk #v[0xFF, 0xFF, 0x00, 0x00, 0xFE] = true := by decide

/-- R190 to R192: a mismatch keeps the payload and `S.valid` false. -/
theorem test_checksum_step :
    (nextOf (step (inPhase .checksum))).map (fun t => (t.valid, t.outcome, t.phase)) = some (true, .ok, .finish) ∧
    (nextOf (step { inPhase .checksum with payload := #v[0x01, 0x90, 0x00, 0xC8, 0x58] })).map
      (fun t => (t.valid, t.outcome, t.payload)) =
      some (false, .checksumFail, #v[0x01, 0x90, 0x00, 0xC8, 0x58]) := by decide

/-- V-T1 to V-T8. -/
theorem test_decode_temperature :
    decodeTemperature 0x00 0xC8 = 0x00C8 ∧ decodeTemperature 0x80 0xC8 = 0xFF38 ∧
    decodeTemperature 0x80 0x00 = 0x0000 ∧ decodeTemperature 0x7F 0xFF = 0x7FFF ∧
    decodeTemperature 0xFF 0xFF = 0x8001 ∧ decodeTemperature 0x80 0x01 = 0xFFFF ∧
    decodeTemperature 0x01 0x00 = 0x0100 ∧ decodeTemperature 0x80 0x65 = 0xFF9B := by decide

/-- V-H1 to V-H3. -/
theorem test_decode_humidity :
    decodeHumidity 0x01 0x90 = 400 ∧ decodeHumidity 0x02 0x8D = 653 ∧ decodeHumidity 0xFF 0xFF = 65535 := by decide

/-- V-S1 at FINISH: 231 and 653, and the sentinel when `S.valid` is false. -/
theorem test_finish :
    (nextOf (step { inPhase .finish with valid := true })).map (fun t => (t.responses, t.trace, t.phase)) =
      some ([.word 231], [.runEnd .ok], .idle) ∧
    (nextOf (step { inPhase .finish with valid := true, cmd := .readHumidity })).map (·.responses) =
      some [.word 653] ∧
    (nextOf (step (inPhase .finish))).map (·.responses) = some [.word 0xFFFF] := by decide

/-! ## Text (R85 to R87) -/

theorem test_assemble :
    assemble "construct 2, 16 # bind\ninitialize\n\nread_both".toList =
      some [.construct ⟨2⟩ 16, .initializeCmd, .readTemperature, .readHumidity] ∧
    assemble "construct 0x2, 0b10000".toList = some [.construct ⟨2⟩ 16] ∧
    assemble "construct 2 16".toList = none ∧ assemble "Available".toList = none := by decide

theorem test_trace_text :
    traceText [.setMode ⟨2⟩ .output, .read ⟨2⟩ .low, .read ⟨2⟩ .low, .read ⟨2⟩ .high, .nowMs 100, .runEnd .ok] =
      ["SET_MODE 2, OUTPUT", "READ 2 -> LOW ×2", "READ 2 -> HIGH", "NOW_MS -> 100", "RUN_END OK"] := by decide

/-! ## Witnesses: the hypotheses of the statements are met together -/

theorem witness_DecodeOfEncode :
    WellFormed 4 (.setMode ⟨5⟩ 0b10) ∧ WellFormed 4 (.debug 0) ∧ WellFormed 4 (.debug 4) ∧
    WellFormed 4 (.construct ⟨0xFFFFFFFF⟩ 0xFFFFFFFF) ∧
    WellFormed 0 (.read ⟨0⟩) ∧ WellFormed 5 (.read ⟨0xFFFFFFFFFF⟩) := by decide

theorem witness_EncodeOfDecode : decode 4 [0x80, 5, 0, 0, 0, 2, 0xAA] = .ok (.setMode ⟨5⟩ 0b10, [0xAA]) := rfl

theorem witness_ReservedOpcodesAreRefused :
    ready.refused = false ∧ ready.phase = .idle ∧
    { ready with calls := [0x06] }.calls = 0x06 :: [] ∧ 6 ≤ (0x06 : Byte).toNat ∧
    { inPhase .capture with reentry := some 0, calls := [0x00] }.reentry = some 0 := by decide

theorem witness_PhaseRequestsAreWellFormed :
    (inPhase .stOutput).pin.fits (inPhase .stOutput).cfg.pinBytes = true ∧
    phaseRequest (inPhase .stOutput) = some (.setMode ⟨2⟩ 0b10) ∧
    phaseRequest (inPhase .stWakeLow) = some (.write ⟨2⟩ .low) ∧
    phaseRequest (inPhase .capture) = some (.read ⟨2⟩) ∧
    phaseRequest { inPhase .failReport with outcome := .checksumFail } = some (.debug 3) := by decide

theorem witness_StepTakesDecodedCommand :
    ready.refused = false ∧ ready.phase = .idle ∧
    decodeCommand ready.cfg.pinBytes { ready with calls := [0x03, 0x04] }.calls = .ok (.available, [0x04]) ∧
    { inPhase .capture with reentry := some 0 }.reentry = some 0 := ⟨rfl, rfl, rfl, rfl⟩

/-- A caller that waits, one that lets a step pass, and one whose command is not whole. -/
theorem witness_StepIssuesPhaseRequest :
    (inPhase .capture).refused = false ∧ (inPhase .capture).phase ≠ .idle ∧ (inPhase .capture).quietFor 1 ∧
    { inPhase .capture with reentry := some 1, calls := [0x03] }.quietFor 1 ∧
    { inPhase .capture with reentry := some 0, calls := [0x01, 2, 0] }.quietFor 1 ∧
    phaseRequest (inPhase .capture) = some (.read ⟨2⟩) := ⟨rfl, by decide, .inl rfl, .inl rfl, .inr rfl, rfl⟩

/-- No byte, and a CONSTRUCT that is not whole. -/
theorem witness_IdleKeepsAllState :
    ready.refused = false ∧ ready.phase = .idle ∧
    decodeCommand ready.cfg.pinBytes ready.calls = .error .truncated ∧
    decodeCommand ready.cfg.pinBytes { ready with calls := [0x01, 2, 0] }.calls = .error .truncated :=
  ⟨rfl, rfl, rfl, rfl⟩

theorem witness_RefusedForGood : stuck.refused = true := by decide

theorem witness_PlacedInstructionRunsNext :
    ready.refused = false ∧ WellFormed 4 .readHumidity ∧ Instr.readHumidity.isCommand = true ∧
    WellFormed 4 (.setMode ⟨5⟩ 0b10) ∧ (Instr.setMode ⟨5⟩ 0b10).isCommand = false := by decide

theorem witness_OneEventAtMostPerStep :
    step (inPhase .stOutput) = .next { inPhase .stWakeLow with trace := [.setMode ⟨2⟩ .output] } := rfl

theorem witness_ConstructSetsUpEngine :
    State.reset.refused = false ∧ State.reset.life = .unbuilt ∧
    State.reset.cfg.timeoutUs * (4294967 : Word32).toNat < 2 ^ State.reset.cfg.countBits := by decide

theorem witness_CommandsRefusedUnlessAdmitted :
    State.reset.refused = false ∧ ¬ State.reset.cfg.timeoutUs * (4294968 : Word32).toNat <
      2 ^ State.reset.cfg.countBits ∧
    ¬ ((State.reset.life = .built ∨ State.reset.life = .ready) ∧ State.reset.phase = .idle) ∧
    ¬ (built.life = .ready ∧ built.phase = .idle) ∧
    ¬ ((inPhase .capture).life = .ready ∧ (inPhase .capture).phase = .idle) := by decide

theorem witness_AdmittedCommandsStartTheirPhase :
    built.refused = false ∧ built.phase = .idle ∧ built.life = .built ∧ ready.refused = false ∧
    ready.phase = .idle ∧ ready.life = .ready := by decide

theorem witness_InitializePrimesTimestamp :
    built.refused = false ∧ built.life = .built ∧ built.phase = .idle ∧
    { built with calls := [0x02] }.calls = 0x02 :: [] ∧ built.quietFor 1 ∧
    { built with reentry := some 1 }.quietFor 1 := ⟨rfl, rfl, rfl, rfl, .inl rfl, .inl rfl⟩

theorem witness_AvailableRespondsWithoutEffect :
    ready.refused = false ∧ ready.life = .ready ∧ ready.phase = .idle ∧
    { ready with calls := [0x03] }.calls = 0x03 :: [] ∧ ready.quietFor 1 ∧
    { ready with clockAnswers := [3000] }.clockAnswers = 3000 :: [] ∧ 3000 < 2 ^ ready.cfg.msBits :=
  ⟨rfl, rfl, rfl, rfl, .inl rfl, rfl, by decide⟩

/-- At 2999 the interval since the stamp 1000 is 1999. -/
theorem witness_ReadsServeCachedOutcome :
    ready.refused = false ∧ ready.life = .ready ∧ ready.phase = .idle ∧
    { ready with calls := [0x05] }.calls = encode ready.cfg.pinBytes ReadCommand.readHumidity.instr ++ [] ∧
    { ready with reentry := some 2 }.quietFor 2 ∧
    { ready with clockAnswers := [2999] }.clockAnswers = 2999 :: [] ∧ 2999 < 2 ^ ready.cfg.msBits ∧
    avail ready.cfg 2999 ready.lastTs = false := ⟨rfl, rfl, rfl, rfl, .inl rfl, rfl, by decide, by decide⟩

/-- The interval may be as long as the clock's whole range. -/
theorem witness_ClockWindowAfterInit :
    defaultConfig.minIntervalMs ≤ 2 ^ defaultConfig.msBits ∧ 0xFFFFF830 < 2 ^ defaultConfig.msBits ∧
    { defaultConfig with minIntervalMs := 2 ^ 32 }.minIntervalMs ≤ 2 ^ defaultConfig.msBits := by decide

/-- SetModeEffect, ReservedModeIsRefused, WriteEffect, DelayEffect, PreemptRequestsEffect, DebugEffect,
NowMsCompletesOnAnyAnswer and ReadCompletesAndFrames assume this alone; every clause's phase occurs. -/
theorem witness_requests_on_live_states :
    ∀ p ∈ [Phase.stOutput, .stRelease, .initMode, .stIdleHigh, .stWakeLow, .stEndHigh, .stIdleWait, .stWakeWait,
      .stEndWait, .stSettle, .capMask, .capUnmask, .failReport, .runAvail, .runStamp, .availQuery, .ackLow, .idle],
      (inPhase p).refused = false := by decide

theorem witness_NowMsEffect :
    (inPhase .runAvail).refused = false ∧
    { inPhase .runAvail with clockAnswers := [3000] }.clockAnswers = 3000 :: [] ∧
    3000 < 2 ^ ready.cfg.msBits ∧ avail ready.cfg 3000 ready.lastTs = true := by decide

/-- The last poll below the ceiling 3, and the last width that is no timeout. -/
theorem witness_PollCountsAwaitedLevel :
    (inPhase .ackLow).refused = false ∧ (inPhase .ackLow).phase.polls = true ∧
    { inPhase .ackLow with readAnswers := [.low] }.readAnswers = (inPhase .ackLow).awaited :: [] ∧
    { inPhase .ackLow with count := 2 }.count < (inPhase .ackLow).maxCycles := by decide

theorem witness_AckWidthGoesOn :
    { inPhase .ackLow with count := 1 }.refused = false ∧ { inPhase .ackLow with count := 1 }.count ≠ 0 ∧
    (inPhase .ackLow).phase = .ackLow ∧ (inPhase .ackHigh).phase = .ackHigh ∧
    { inPhase .ackLow with readAnswers := [.high] }.readAnswers = .high :: [] ∧
    { inPhase .ackHigh with readAnswers := [.low] }.readAnswers = .low :: [] := by decide

/-- Gone at the first poll (V-AK2), and at the ceiling (V-AK3). -/
theorem witness_AckZeroWidthIsStartFail :
    (inPhase .ackLow).refused = false ∧ (inPhase .ackLow).phase = .ackLow ∧
    { inPhase .ackLow with readAnswers := [.high] }.readAnswers = .high :: [] ∧
    (Level.high ≠ (inPhase .ackLow).awaited ∧ (inPhase .ackLow).count = 0) ∧
    (Level.low = (inPhase .ackLow).awaited ∧
      (inPhase .ackLow).maxCycles ≤ { inPhase .ackLow with count := 3 }.count) := by decide

/-- Pulse 78 awaits LOW, pulse 79 HIGH. -/
theorem witness_CaptureStoresWidth :
    (inPhase .capture).refused = false ∧ (inPhase .capture).phase = .capture ∧
    { inPhase .capture with readAnswers := [.high] }.readAnswers = .high :: [] ∧
    { inPhase .capture with idx := 78 }.awaited = .low ∧ { inPhase .capture with idx := 79 }.awaited = .high ∧
    Level.high ≠ { inPhase .capture with idx := 78 }.awaited ∧
    (inPhase .capture).maxCycles ≤ { inPhase .capture with count := 3 }.count := by decide

theorem witness_StartSequenceIsNineRequests :
    (inPhase .stIdleHigh).refused = false ∧ (inPhase .stIdleHigh).phase = .stIdleHigh ∧
    (inPhase .stIdleHigh).quietFor 9 ∧ { inPhase .stIdleHigh with reentry := some 9 }.quietFor 9 :=
  ⟨rfl, rfl, .inl rfl, .inl rfl⟩

/-- The caller waits; lets one step pass; has no whole command. -/
theorem witness_internal_steps_are_quiet :
    ∀ p ∈ [Phase.decode, .checksum, .finish],
      (inPhase p).refused = false ∧ (inPhase p).phase = p ∧ (inPhase p).quietFor 1 ∧
      { inPhase p with reentry := some 1, calls := [0x03] }.quietFor 1 ∧
      { inPhase p with reentry := some 0 }.quietFor 1 := by
  intro p _
  exact ⟨rfl, rfl, .inl rfl, .inl rfl, .inr rfl⟩

/-- With `witness_internal_steps_are_quiet`. -/
theorem witness_DecodePacksLongerHighs :
    ∀ j : Fin 80, { inPhase .decode with pw := Vector.replicate 80 40 }.pw[j] ≠ 0 := fun _ => by simp

/-- With `witness_internal_steps_are_quiet`. -/
theorem witness_ZeroWidthIsCaptureTimeout :
    { inPhase .decode with pw := widths 0 51 }.pw[(0 : Fin 80)] = 0 ∧
    (inPhase .decode).pw[(79 : Fin 80)] = 0 := by decide

/-- A failed run with DEBUG_ENABLED (V-R6). -/
def reporting : State :=
  { inPhase .failReport with outcome := .startFail, cfg := { defaultConfig with debugEnabled := true } }

theorem witness_DebugOnlyWhenEnabled :
    reporting.Inv ∧ step reporting = .next { reporting with phase := .finish, trace := [.debug 1] } ∧
    ({ reporting with phase := .finish, trace := [.debug 1] } : State).trace = reporting.trace ++ [.debug 1] :=
  ⟨by decide, rfl, rfl⟩

/-- V-D8: widths scaled by 3; and two pairs whose high widths are both the greater. -/
theorem witness_ScalingKeepsPayload :
    (∀ b : Fin 40, 0 < 3 ∧
      (Vector.replicate 80 120)[2 * b.val] = 3 * (Vector.replicate 80 40)[2 * b.val] ∧
      (Vector.replicate 80 120)[2 * b.val + 1] = 3 * (Vector.replicate 80 40)[2 * b.val + 1]) ∧
    ((widths 50 51)[0] < (widths 50 51)[1] ↔ (widths 10 99)[0] < (widths 10 99)[1]) := by
  refine ⟨fun _ => by simp, by decide⟩

theorem witness_SingleBitFlipsAreDetected : checksumOk #v[0x01, 0x90, 0x00, 0xC8, 0x59] = true := by decide

theorem witness_CompensatingErrorsPass :
    checksumOk #v[0x01, 0x90, 0x00, 0xC8, 0x59] = true ∧ (0 : Fin 4) ≠ 1 := by decide

/-- Widths 0 and 3, the ends of the range with the ceiling 3. -/
theorem witness_PulseMeasuresWidth :
    (inPhase .ackLow).refused = false ∧ (inPhase .ackLow).phase.polls = true ∧
    { inPhase .ackLow with reentry := some 4 }.quietFor 4 ∧
    (inPhase .ackLow).count = 0 ∧ 3 ≤ (inPhase .ackLow).maxCycles ∧
    { inPhase .ackLow with readAnswers := [.low, .low, .low, .high] }.readAnswers =
      seg (inPhase .ackLow).awaited 3 ++ [] ∧
    { inPhase .ackLow with readAnswers := [.high] }.readAnswers = seg (inPhase .ackLow).awaited 0 ++ [] :=
  ⟨rfl, rfl, .inl rfl, rfl, by decide, rfl, rfl⟩

/-- V-P3, and the zero ceiling of V-P6. -/
theorem witness_PulseTimesOut :
    (inPhase .ackLow).refused = false ∧ (inPhase .ackLow).phase.polls = true ∧
    (inPhase .ackLow).quietFor ((inPhase .ackLow).maxCycles + 1) ∧ (inPhase .ackLow).count = 0 ∧
    { inPhase .ackLow with readAnswers := [.low, .low, .low, .low] }.readAnswers =
      List.replicate ((inPhase .ackLow).maxCycles + 1) (inPhase .ackLow).awaited ++ [] ∧
    { inPhase .ackLow with maxCycles := 0, readAnswers := [.low] }.readAnswers =
      List.replicate ({ inPhase .ackLow with maxCycles := 0 }.maxCycles + 1) Level.low ++ [] :=
  ⟨rfl, rfl, .inl rfl, rfl, rfl, rfl⟩

/-- A capture whose pulses are widths 0 to the ceiling 3 and timeouts. -/
def mixed : List (Option Nat) := (List.range 80).map fun j => if j % 5 = 4 then none else some (j % 5)

theorem witness_CaptureRecordsEveryWidth :
    (inPhase .capture).refused = false ∧ (inPhase .capture).phase = .capture ∧ (inPhase .capture).count = 0 ∧
    (inPhase .capture).idx = 0 ∧ mixed.length = 80 ∧
    (∀ w ∈ mixed, ∀ k, w = some k → k ≤ (inPhase .capture).maxCycles) ∧
    { inPhase .capture with readAnswers := pulseScript 3 0 mixed }.readAnswers = pulseScript 3 0 mixed ++ [] ∧
    (inPhase .capture).quietFor (pulseScript 3 0 mixed).length := by
  refine ⟨rfl, rfl, rfl, rfl, by decide, ?_, (List.append_nil _).symm, .inl rfl⟩
  intro w hw k hk
  subst hk
  simp only [mixed, List.mem_map, List.mem_range] at hw
  obtain ⟨j, -, hj⟩ := hw
  split at hj
  · cases hj
  · cases hj
    show j % 5 ≤ 3
    omega

theorem witness_RunCompletesWithinBound :
    (inPhase .runAvail).refused = false ∧ (inPhase .runAvail).phase ≠ .idle ∧
    (inPhase .capture).phase ≠ .idle := by decide

/-- V-R4: the check at 3000 after the stamp 1000. -/
theorem witness_StartFailAtFirstPoll :
    (inPhase .runAvail).refused = false ∧ (inPhase .runAvail).phase = .runAvail ∧
    { inPhase .runAvail with reentry := some 13 }.quietFor 13 ∧
    (inPhase .runAvail).cfg.debugEnabled = false ∧
    { inPhase .runAvail with clockAnswers := [3000, 3001] }.clockAnswers = 3000 :: 3001 :: [] ∧
    3000 < 2 ^ (inPhase .runAvail).cfg.msBits ∧ 3001 < 2 ^ (inPhase .runAvail).cfg.msBits ∧
    { inPhase .runAvail with readAnswers := [.high] }.readAnswers = .high :: [] ∧
    avail (inPhase .runAvail).cfg 3000 (inPhase .runAvail).lastTs = true :=
  ⟨rfl, rfl, .inl rfl, rfl, rfl, by decide, by decide, rfl, by decide⟩

/-- A caller that reads the humidity of a frame of the smallest widths. -/
def framed : State :=
  { ready with
    calls := encode 4 ReadCommand.readHumidity.instr ++ []
    clockAnswers := [3000, 3001]
    readAnswers := frameScript #v[0x02, 0x8D, 0x00, 0xE7, 0x76] 1 3 1 1 3 ++ [] }

theorem witness_ReadReturnsFrameContents :
    (framed.refused = false ∧ framed.life = .ready ∧ framed.phase = .idle ∧
    framed.clockAnswers = 3000 :: 3001 :: [] ∧ 3000 < 2 ^ framed.cfg.msBits ∧ 3001 < 2 ^ framed.cfg.msBits ∧
    avail framed.cfg 3000 framed.lastTs = true ∧
    0 < 1 ∧ 1 ≤ framed.maxCycles ∧ 0 < 3 ∧ 3 ≤ framed.maxCycles ∧ 1 ≤ 1 ∧ 1 < 3) ∧
    framed.calls = encode framed.cfg.pinBytes ReadCommand.readHumidity.instr ++ [] ∧
    { framed with calls := [] }.quietFor (runBound framed) ∧
    framed.readAnswers = frameScript #v[0x02, 0x8D, 0x00, 0xE7, 0x76] 1 3 1 1 3 ++ [] :=
  ⟨by decide, rfl, .inl rfl, rfl⟩

theorem witness_StepKeepsWidths :
    { inPhase .runStamp with clockAnswers := [7] }.WidthInv ∧
    step { inPhase .runStamp with clockAnswers := [7] } =
      .next { inPhase .stIdleHigh with lastTs := 7, trace := [.nowMs 7] } := ⟨by decide, rfl⟩

theorem witness_StepKeepsInvariant :
    (inPhase .capMask).Inv ∧
    step (inPhase .capMask) =
      .next { inPhase .capture with masked := true, trace := [.preemptOff] } := ⟨by decide, rfl⟩

theorem witness_StepKeepsPreemptionBracket :
    { inPhase .capUnmask with masked := true, trace := [.preemptOff, .read ⟨2⟩ .low] }.BracketInv ∧
    step { inPhase .capUnmask with masked := true, trace := [.preemptOff, .read ⟨2⟩ .low] } =
      .next { inPhase .decode with trace := [.preemptOff, .read ⟨2⟩ .low, .preemptOn] } := ⟨by decide, rfl⟩

theorem witness_StepKeepsPin :
    (inPhase .stWakeLow).PinInv ∧
    step (inPhase .stWakeLow) = .next { inPhase .stWakeWait with trace := [.write ⟨2⟩ .low] } := ⟨by decide, rfl⟩

theorem witness_ConstructionRegistersAreFixed :
    step (inPhase .capMask) = .next { inPhase .capture with masked := true, trace := [.preemptOff] } ∧
    (inPhase .capMask).life ≠ .unbuilt := ⟨rfl, by decide⟩

theorem witness_OnlyChecksumSetsValid :
    step (inPhase .checksum) = .next { inPhase .finish with valid := true } ∧ (inPhase .checksum).valid = false :=
  ⟨rfl, rfl⟩

theorem witness_RegisterWriters :
    step { inPhase .runStamp with clockAnswers := [7] } =
      .next { inPhase .stIdleHigh with lastTs := 7, trace := [.nowMs 7] } ∧
    step { inPhase .decode with pw := widths 50 51 } =
      .next { inPhase .checksum with pw := widths 50 51, payload := #v[0x80, 0, 0, 0, 0] } := ⟨rfl, rfl⟩

end Sys2Proof.Tests
end

/-! ## Scope (00_scope.md): a refused state

Every meaning answers through `live`, which turns a refused state away; the one other way out, the reserved
mode of SET_MODE, looks at `S.refused` first. -/

namespace Sys2Proof.Machine

@[simp] theorem live_of_refused {s : State} (t : State) (h : s.refused = true) :
    live s t = .refused .stateRefused := by
  simp [live, h]

/-- In a refused state even the reserved mode code is refused as the state is (R11 before R71). -/
theorem execSetMode_of_refused {s : State} (pin : PinId) (mode : BitVec 2) (h : s.refused = true) :
    execSetMode pin mode s = .refused .stateRefused := by
  unfold execSetMode
  cases Mode.ofCode mode with
  | some m => exact live_of_refused _ h
  | none => exact if_pos h

theorem exec_of_refused {s : State} (i : Instr) (h : s.refused = true) :
    exec i s = .refused .stateRefused := by
  cases i with
  | setMode pin mode => exact execSetMode_of_refused pin mode h
  | _ => exact live_of_refused _ h

theorem step_of_refused {s : State} (h : s.refused = true) : step s = .refused .stateRefused :=
  if_pos h

/-- Settles O9: the step turns a refused state away before it fetches, and so does every meaning. -/
theorem refusedForGood : Obligations.RefusedForGood :=
  fun _ h => ⟨step_of_refused h, fun i => exec_of_refused i h⟩

end Sys2Proof.Machine

/-! ## The step at IDLE, in a phase, and in FINISH (10_state.md section 3, R28)

What a step executes follows from what it fetches; an accepted command then answers its effect, and a quiet step is
the step of its phase. -/

namespace Sys2Proof.Machine

/-- A command is taken at IDLE, or from a caller that does not wait once its countdown is at 0 (log 11). -/
theorem step_listens {s : State} {i : Instr} {rest : List Byte} (hr : s.refused = false)
    (hl : s.phase = .idle ∨ s.reentry = some 0) (hd : decodeCommand s.cfg.pinBytes s.calls = .ok (i, rest)) :
    step s = exec i { s with calls := rest } := by
  have hf : fetch s = .command i rest := by simp [fetch, State.listens, hl, hd]
  unfold step cycle
  rw [if_neg (by simp [hr]), hf]

/-- Where no command is taken, a step executes the request of the phase. -/
theorem step_request {s : State} {i : Instr} (hr : s.refused = false) (hc : s.noCommand)
    (hi : phaseRequest s = some i) : step s = exec i s.tick := by
  have hf : fetch s = .request i := by
    rw [show fetch s = phaseWork s from hc, phaseWork, hi]
  unfold step cycle
  rw [if_neg (by simp [hr]), hf]

theorem exec_accepted {i : Instr} {s : State} (hi : i.isCommand = true) (hr : s.refused = false)
    (ha : commandAccepted i s = true) : exec i s = .next (commandEffect i s) := by
  rw [exec_command hi, command_next]
  exact ⟨hr, .inl ⟨ha, rfl⟩⟩

/-- Settles O6: a listening step fetches the command its bytes decode to. -/
theorem stepTakesDecodedCommand : Obligations.StepTakesDecodedCommand :=
  fun _ _ _ hr hl hd => step_listens hr hl hd

/-- Settles O7: a quiet step takes no command, and `State.tick` is the countdown. -/
theorem stepIssuesPhaseRequest : Obligations.StepIssuesPhaseRequest :=
  fun _ _ hr hp hq hi => step_request hr (hq.noCommand hp) hi

/-- Settles O14: each command is accepted by its row of R109, and its effect is the phase it starts. -/
theorem admittedCommandsStartTheirPhase : Obligations.AdmittedCommandsStartTheirPhase := by
  intro s hr hp
  refine ⟨fun hl => exec_accepted rfl hr (admitsInit_iff.2 ⟨hl, hp⟩), fun hl => ?_⟩
  have ha : admitsQuery s = true := admitsQuery_iff.2 ⟨hl, hp⟩
  exact ⟨exec_accepted rfl hr ha, exec_accepted rfl hr ha, exec_accepted rfl hr ha⟩

/-- Settles O37: the step of FINISH is `State.finishRun`, after one tick of the countdown. -/
theorem finishRespondsAndReturns : Obligations.FinishRespondsAndReturns := by
  intro s hr hp hq
  have hn : phaseNext (s.tickBy 1) = (s.tickBy 1).finishRun := by simp [phaseNext, hp]
  rw [step_quiet hr (by simp [hp]) hq, hn]
  rfl

end Sys2Proof.Machine

/-! ## Reading back an encoded instruction (30_encoding.md, R71 to R77)

Each operand's decoder undoes its encoder, so each interface reads back the well-formed instructions that are its
own. -/

namespace Sys2Proof

theorem Mode.code_ne_reserved (m : Mode) : m.code ≠ 0b11#2 := by cases m <;> decide

theorem Mode.code_ofCode_getD {c : BitVec 2} (h : c ≠ 0b11#2) : ((Mode.ofCode c).getD .input).code = c := by
  revert c; decide

theorem withOperand_pinBytes {k : Nat} {p : PinId} (h : p.fits k = true) (rest : List Byte)
    (go : Nat → List Byte → Decoded) : withOperand k (p.bytes k ++ rest) go = go p.id rest :=
  withOperand_natBytes (PinId.fits_iff.1 h) rest go

theorem decodeWord_wordBytes (mk : Word32 → Instr) (w : Word32) (rest : List Byte) :
    decodeWord mk (wordBytes w ++ rest) = .ok (mk w, rest) := by
  rw [decodeWord, wordBytes, withOperand_natBytes (by exact w.isLt)]
  simp

theorem decodeMode_setWidth (pin : PinId) {m : BitVec 2} (hm : m ≠ 0b11#2) (rest : List Byte) :
    decodeMode pin (m.setWidth 8 :: rest) = .ok (.setMode pin m, rest) := by
  have hle : (m.setWidth 8).toNat ≤ 2 := by bv_omega
  have hx : (m.setWidth 8).extractLsb' 0 2 = m := by revert m; decide
  rw [decodeMode, if_pos hle, hx]

theorem decodeLevel_code (pin : PinId) (l : Level) (rest : List Byte) :
    decodeLevel pin (l.code :: rest) = .ok (.write pin l, rest) := by
  cases l <;> rfl

/-- The command interface reads back an encoded command (R73). -/
theorem decodeCommand_encode {k : Nat} {i : Instr} (hw : WellFormed k i) (hi : i.isCommand = true)
    (rest : List Byte) : decodeCommand k (encode k i ++ rest) = .ok (i, rest) := by
  cases i with
  | construct pin cpu =>
    show withOperand k ((pin.bytes k ++ wordBytes cpu) ++ rest) _ = _
    rw [List.append_assoc, withOperand_pinBytes hw]
    exact decodeWord_wordBytes (.construct pin) cpu rest
  | initializeCmd | available | readTemperature | readHumidity => rfl
  | _ => cases hi

/-- The platform interface reads back an encoded request (R77). -/
theorem decodeRequest_encode {k : Nat} {i : Instr} (hw : WellFormed k i) (hi : i.isCommand = false)
    (rest : List Byte) : decodeRequest k (encode k i ++ rest) = .ok (i, rest) := by
  cases i with
  | setMode pin mode =>
    obtain ⟨hp, hm⟩ : pin.fits k = true ∧ mode ≠ 0b11#2 := by simpa [WellFormed, wellFormed] using hw
    show withOperand k ((pin.bytes k ++ [mode.setWidth 8]) ++ rest) _ = _
    rw [List.append_assoc, withOperand_pinBytes hp]
    exact decodeMode_setWidth pin hm rest
  | write pin level =>
    show withOperand k ((pin.bytes k ++ [level.code]) ++ rest) _ = _
    rw [List.append_assoc, withOperand_pinBytes hw]
    exact decodeLevel_code pin level rest
  | read pin => exact withOperand_pinBytes hw rest _
  | delayMs n => exact decodeWord_wordBytes .delayMs n rest
  | delayUs n => exact decodeWord_wordBytes .delayUs n rest
  | debug code => exact if_pos (of_decide_eq_true hw)
  | nowMs | preemptOff | preemptOn => rfl
  | _ => cases hi

/-- A command that decodes is well formed: its pin fits the bytes it was read from. -/
theorem decodeCommand_wellFormed {k : Nat} {bs : List Byte} {i : Instr} {rest : List Byte}
    (h : decodeCommand k bs = .ok (i, rest)) : WellFormed k i := by
  revert h
  unfold decodeCommand
  split
  · intro h; cases h
  · split
    · intro h
      obtain ⟨p, bs, hp, -, hc⟩ := withOperand_eq_ok h
      obtain ⟨c, r, -, -, hi⟩ := withOperand_eq_ok hc
      cases hi
      exact PinId.fits_iff.2 hp
    split
    · rintro ⟨⟩; rfl
    split
    · rintro ⟨⟩; rfl
    split
    · rintro ⟨⟩; rfl
    split
    · rintro ⟨⟩; rfl
    · intro h; cases h

end Sys2Proof

/-! ## The requests of the phase table, and placing an instruction (10_state.md section 3, R28; log 13) -/

namespace Sys2Proof.Machine

theorem OutcomeCode.code_le (o : OutcomeCode) : o.code.toNat ≤ 4 := by cases o <;> decide

theorem OutcomeCode.code_ofCode_getD {c : Byte} (h : c.toNat ≤ 4) : ((OutcomeCode.ofCode c).getD .ok).code = c := by
  have hc : c = 0 ∨ c = 1 ∨ c = 2 ∨ c = 3 ∨ c = 4 := by bv_omega
  obtain rfl | rfl | rfl | rfl | rfl := hc <;> rfl

/-- Every pin of the table is `S.pin`, every mode one of the three, every outcome code that of `S.outcome`. -/
theorem phaseRequest_cases {s : State} {i : Instr} (h : phaseRequest s = some i) :
    (∃ m : Mode, i = .setMode s.pin m.code) ∨ (∃ l, i = .write s.pin l) ∨ i = .read s.pin ∨ i = .nowMs ∨
    (∃ n, i = .delayMs n) ∨ (∃ n, i = .delayUs n) ∨ i = .preemptOff ∨ i = .preemptOn ∨
    i = .debug s.outcome.code := by
  unfold phaseRequest at h
  split at h <;> cases h <;> simp

theorem phaseRequest_isRequest {s : State} {i : Instr} (h : phaseRequest s = some i) : i.isCommand = false := by
  obtain ⟨m, rfl⟩ | ⟨l, rfl⟩ | rfl | rfl | ⟨n, rfl⟩ | ⟨n, rfl⟩ | rfl | rfl | rfl := phaseRequest_cases h <;> rfl

theorem phaseRequest_wellFormed {s : State} {i : Instr} (hfit : s.pin.fits s.cfg.pinBytes = true)
    (h : phaseRequest s = some i) : WellFormed s.cfg.pinBytes i := by
  obtain ⟨m, rfl⟩ | ⟨l, rfl⟩ | rfl | rfl | ⟨n, rfl⟩ | ⟨n, rfl⟩ | rfl | rfl | rfl := phaseRequest_cases h
  exacts [by simp [WellFormed, wellFormed, hfit, m.code_ne_reserved], hfit, hfit, rfl, rfl, rfl, rfl, rfl,
    decide_eq_true s.outcome.code_le]

/-- Settles O5: the requests of the table are well formed, and what is well formed is read back. -/
theorem phaseRequestsAreWellFormed : Obligations.PhaseRequestsAreWellFormed := by
  intro s i hfit hi
  have hw := phaseRequest_wellFormed hfit hi
  have hd := decodeRequest_encode hw (phaseRequest_isRequest hi) []
  rw [List.append_nil] at hd
  refine ⟨hw, hd, ?_, ?_, ?_⟩
  · rintro p m rfl
    have hm : p = s.pin ∧ ∃ m' : Mode, m = m'.code := by simpa using phaseRequest_cases hi
    exact hm.1
  · rintro p l rfl
    simpa using phaseRequest_cases hi
  · rintro p rfl
    simpa using phaseRequest_cases hi

theorem phaseRequest_placeRequest {i : Instr} {s : State} (hw : WellFormed s.cfg.pinBytes i)
    (hi : i.isCommand = false) : phaseRequest (s.placeRequest i) = some i := by
  cases i with
  | setMode pin mode =>
    obtain ⟨-, hm⟩ : pin.fits s.cfg.pinBytes = true ∧ mode ≠ 0b11#2 := by simpa [WellFormed, wellFormed] using hw
    show some (Instr.setMode pin ((Mode.ofCode mode).getD .input).code) = _
    rw [Mode.code_ofCode_getD hm]
  | debug code =>
    show some (Instr.debug ((OutcomeCode.ofCode code).getD .ok).code) = _
    rw [OutcomeCode.code_ofCode_getD (of_decide_eq_true hw)]
  | write pin level => cases level <;> rfl
  | read | nowMs | delayMs | delayUs | preemptOff | preemptOn => rfl
  | _ => cases hi

/-- Placing a request leads outside IDLE, to a caller that waits. -/
theorem placeRequest_waits {i : Instr} (s : State) (hi : i.isCommand = false) :
    (s.placeRequest i).refused = s.refused ∧ (s.placeRequest i).reentry = none ∧
    (s.placeRequest i).phase ≠ .idle := by
  cases i with
  | write pin level => cases level <;> exact ⟨rfl, rfl, Phase.noConfusion⟩
  | setMode | read | nowMs | delayMs | delayUs | preemptOff | preemptOn | debug =>
    exact ⟨rfl, rfl, Phase.noConfusion⟩
  | _ => cases hi

/-- There is nothing to count down for a caller that waits. -/
theorem State.tick_of_waits {s : State} (h : s.reentry = none) : s.tick = s := by
  cases s; cases h; rfl

/-- Settles O10: a placed command is read back from its bytes; a placed request is the one its phase issues. -/
theorem placedInstructionRunsNext : Obligations.PlacedInstructionRunsNext := by
  intro s i hr hw
  refine ⟨fun hi => ?_, fun hi => ?_⟩
  · have hplace : s.placeInstr i = { s with phase := .idle, calls := encode s.cfg.pinBytes i ++ s.calls } :=
      if_pos hi
    rw [hplace]
    exact step_command hr rfl (decodeCommand_encode hw hi s.calls)
  · have hplace : s.placeInstr i = s.placeRequest i := if_neg (by simp [hi])
    obtain ⟨hrefused, hreentry, hphase⟩ := placeRequest_waits s hi
    have hcmd : (s.placeRequest i).noCommand := noCommand_of_waits hphase (by simp [hreentry])
    rw [hplace, step_request (hrefused.trans hr) hcmd (phaseRequest_placeRequest hw hi),
      State.tick_of_waits hreentry]

end Sys2Proof.Machine

/-! ## Who writes what (10_state.md section 1, R20)

R20's column "written by", said once for the accepted commands and once for the step of a phase; the whole-machine
rules about single elements follow by the cases of a step. -/

namespace Sys2Proof.Machine

/-- CONSTRUCT sets up an UNBUILT engine (R100); INITIALIZE, and for a READY engine the other commands, start a phase
from IDLE (R101 to R104). -/
theorem commandEffect_cases {i : Instr} {s : State} (ha : commandAccepted i s = true) :
    (∃ pin cpu, i = .construct pin cpu ∧ s.life = .unbuilt ∧ ceiling s.cfg.timeoutUs cpu < 2 ^ s.cfg.countBits ∧
      commandEffect i s = { s with
        pin := pin, maxCycles := ceiling s.cfg.timeoutUs cpu, valid := false
        masked := false, phase := .idle, life := .built }) ∨
    (s.phase = .idle ∧ (s.life = .built ∨ s.life = .ready) ∧ commandEffect i s = s.goto .initMode) ∨
    (∃ p c, s.phase = .idle ∧ s.life = .ready ∧ (p = .availQuery ∨ p = .runAvail) ∧
      commandEffect i s = { s with cmd := c, phase := p }) := by
  cases i with
  | construct pin cpu =>
    obtain ⟨hl, hf⟩ : s.life = .unbuilt ∧ ceiling s.cfg.timeoutUs cpu < 2 ^ s.cfg.countBits := by
      simpa [commandAccepted, ceiling] using ha
    exact .inl ⟨pin, cpu, rfl, hl, hf, rfl⟩
  | initializeCmd =>
    obtain ⟨hl, hp⟩ := admitsInit_iff.1 ha
    exact .inr (.inl ⟨hp, hl, rfl⟩)
  | available =>
    obtain ⟨hl, hp⟩ := admitsQuery_iff.1 ha
    exact .inr (.inr ⟨_, s.cmd, hp, hl, .inl rfl, rfl⟩)
  | readTemperature | readHumidity =>
    obtain ⟨hl, hp⟩ := admitsQuery_iff.1 ha
    exact .inr (.inr ⟨_, _, hp, hl, .inr rfl, rfl⟩)
  | _ => cases ha

/-- All the return of a Pulse can change: the payload in an acknowledgment that fails, the scratch buffer in CAPTURE
(R155, R170). -/
theorem pulseDone_eq (w : Nat) (s : State) :
    s.pulseDone w = { s with
      payload := if s.phase = .ackLow ∨ s.phase = .ackHigh then (s.pulseDone w).payload else s.payload
      pw := if s.phase = .capture then (s.pulseDone w).pw else s.pw
      outcome := (s.pulseDone w).outcome, phase := (s.pulseDone w).phase, count := (s.pulseDone w).count
      idx := (s.pulseDone w).idx, draws := (s.pulseDone w).draws } := by
  obtain ⟨hp, -, h⟩ | ⟨hp, -, h⟩ | ⟨hp, -, h⟩ | ⟨hp, -, h⟩ | ⟨hi, hp, h⟩ | ⟨-, hp, h⟩ | ⟨hl, hh, hp, h⟩ :=
    pulseDone_cases w s
  · simp [h, hp, fail_eq]
  · simp [h, hp]
  · simp [h, hp, fail_eq]
  · simp [h, hp]
  · simp [h, hp]
  · simp [h, hp]
  · simp [h, hl, hh, hp]

/-- All one poll can change (R210). -/
theorem poll_eq (l : Level) (s : State) :
    s.poll l = { s with
      payload := if s.phase = .ackLow ∨ s.phase = .ackHigh then (s.poll l).payload else s.payload
      pw := if s.phase = .capture then (s.poll l).pw else s.pw
      outcome := (s.poll l).outcome, phase := (s.poll l).phase, count := (s.poll l).count
      idx := (s.poll l).idx, draws := (s.poll l).draws } := by
  obtain ⟨-, -, h⟩ | ⟨-, -, h⟩ | ⟨-, h⟩ := poll_cases l s
  · simp [h]
  · rw [h]; exact pulseDone_eq 0 s
  · rw [h]; exact pulseDone_eq s.count s

/-- All an answer to NOW_MS can change: the timestamp in RUN_STAMP, the responses in AVAIL_QUERY (R102, R130, R132). -/
theorem afterNowMs_eq (t : Nat) (s : State) :
    s.afterNowMs t = { s with
      lastTs := if s.phase = .runStamp then t else s.lastTs
      responses := if s.phase = .availQuery then (s.afterNowMs t).responses else s.responses
      phase := (s.afterNowMs t).phase, outcome := (s.afterNowMs t).outcome, valid := (s.afterNowMs t).valid } := by
  unfold State.afterNowMs
  cases hp : s.phase with
  | runAvail => simp only; split <;> rfl
  | _ => rfl

/-- The two ends of DECODE (R174, R177). -/
theorem decodeStep_cases (s : State) :
    s.decodeStep = s.fail .captureTimeout ∨
    s.decodeStep = { s with payload := packPayload (dataBit s.pw), phase := .checksum } := by
  unfold State.decodeStep
  split
  · exact .inl rfl
  · exact .inr rfl

/-- The two ends of CHECKSUM (R190 to R192). -/
theorem checksumStep_cases (s : State) :
    checksumOk s.payload = true ∧ s.checksumStep = { s with valid := true, outcome := .ok, phase := .finish } ∨
    checksumOk s.payload = false ∧ s.checksumStep = s.fail .checksumFail := by
  unfold State.checksumStep
  cases checksumOk s.payload
  · exact .inr ⟨rfl, rfl⟩
  · exact .inl ⟨rfl, rfl⟩

/-- The elements no step of a phase writes, and, for those only certain phases write, which phases. -/
theorem phaseNext_eq (s : State) :
    phaseNext s = { phaseNext s with
      pin := s.pin, maxCycles := s.maxCycles, cmd := s.cmd, refused := s.refused, cfg := s.cfg
      calls := s.calls, reentry := s.reentry
      life := if s.phase = .initMode then .ready else s.life
      lastTs :=
        if s.phase = .runStamp then s.nextClock
        else if s.phase = .initMode then elapsed s.cfg.msBits 0 s.cfg.minIntervalMs
        else s.lastTs
      payload :=
        if s.phase = .decode ∨ s.phase = .ackLow ∨ s.phase = .ackHigh then (phaseNext s).payload else s.payload
      pw := if s.phase = .capture then (phaseNext s).pw else s.pw
      responses :=
        if s.phase = .finish ∨ s.phase = .availQuery then (phaseNext s).responses else s.responses } := by
  unfold phaseNext
  cases hp : s.phase with
  | runAvail | runStamp | availQuery => rw [afterNowMs_eq]; simp [hp]
  | ackLow | ackHigh | capture => rw [poll_eq]; simp [hp]
  | decode => obtain h | h := decodeStep_cases s <;> simp [h, fail_eq]
  | checksum => obtain ⟨-, h⟩ | ⟨-, h⟩ := checksumStep_cases s <;> simp [h, fail_eq, drawsPayload]
  | _ => rfl

@[simp] theorem phaseNext_pin (s : State) : (phaseNext s).pin = s.pin := by rw [phaseNext_eq]
@[simp] theorem phaseNext_maxCycles (s : State) : (phaseNext s).maxCycles = s.maxCycles := by rw [phaseNext_eq]
@[simp] theorem phaseNext_cmd (s : State) : (phaseNext s).cmd = s.cmd := by rw [phaseNext_eq]
@[simp] theorem phaseNext_cfg (s : State) : (phaseNext s).cfg = s.cfg := by rw [phaseNext_eq]

theorem phaseNext_life (s : State) : (phaseNext s).life = if s.phase = .initMode then .ready else s.life := by
  rw [phaseNext_eq]

theorem phaseNext_lastTs (s : State) :
    (phaseNext s).lastTs =
      if s.phase = .runStamp then s.nextClock
      else if s.phase = .initMode then elapsed s.cfg.msBits 0 s.cfg.minIntervalMs
      else s.lastTs := by
  rw [phaseNext_eq]

theorem phaseNext_writes_lastTs {s : State} (h : (phaseNext s).lastTs ≠ s.lastTs) :
    s.phase = .runStamp ∨ s.phase = .initMode := by
  by_contra hp
  rw [not_or] at hp
  exact h (by simp [phaseNext_lastTs, hp])

theorem phaseNext_writes_payload {s : State} (h : (phaseNext s).payload ≠ s.payload) :
    s.phase = .decode ∨ s.phase = .ackLow ∨ s.phase = .ackHigh := by
  by_contra hp
  rw [phaseNext_eq] at h
  exact h (if_neg hp)

theorem phaseNext_writes_responses {s : State} (h : (phaseNext s).responses ≠ s.responses) :
    s.phase = .finish ∨ s.phase = .availQuery := by
  by_contra hp
  rw [phaseNext_eq] at h
  exact h (if_neg hp)

theorem pulseDone_pw_of_capture {s : State} (w : Nat) (hp : s.phase = .capture) :
    (s.pulseDone w).pw = s.pw.set s.idx.val w s.idx.isLt := by
  unfold State.pulseDone State.nextPulse
  simp only [hp]
  split <;> rfl

/-- What a poll of the capture stores at `S.idx` is the sentinel 0 or the counter (R170, R210). -/
theorem poll_pw_of_capture (l : Level) {s : State} (hp : s.phase = .capture) :
    (s.poll l).pw = s.pw ∨ ∃ w ≤ s.count, (s.poll l).pw = s.pw.set s.idx.val w s.idx.isLt := by
  obtain ⟨-, -, h⟩ | ⟨-, -, h⟩ | ⟨-, h⟩ := poll_cases l s <;> rw [h]
  · exact .inl rfl
  · exact .inr ⟨0, Nat.zero_le _, pulseDone_pw_of_capture 0 hp⟩
  · exact .inr ⟨s.count, le_rfl, pulseDone_pw_of_capture s.count hp⟩

theorem phaseNext_writes_pw {s : State} (h : (phaseNext s).pw ≠ s.pw) :
    s.phase = .capture ∧ ∃ w ≤ s.count, (phaseNext s).pw = s.pw.set s.idx.val w s.idx.isLt := by
  have hp : s.phase = .capture := by
    by_contra hp
    rw [phaseNext_eq] at h
    exact h (if_neg hp)
  have hn : phaseNext s = (s.takeLevel.emit (.read s.pin s.nextLevel)).poll s.nextLevel := by simp [phaseNext, hp]
  rw [hn] at h ⊢
  exact ⟨hp, (poll_pw_of_capture s.nextLevel (s := s.takeLevel.emit _) hp).resolve_left h⟩

/-- Settles O57: CONSTRUCT alone writes the two registers, in an UNBUILT engine. -/
theorem constructionRegistersAreFixed : Obligations.ConstructionRegistersAreFixed := by
  intro s t h
  obtain ⟨-, ⟨i, rest, -, -, -, ha, rfl⟩ | ⟨rest, rfl⟩ | ⟨-, rfl⟩ | ⟨-, rfl⟩⟩ := step_cases h
  · obtain ⟨pin, cpu, -, hl, -, he⟩ | ⟨-, -, he⟩ | ⟨p, c, -, -, -, he⟩ := commandEffect_cases ha <;> rw [he]
    · exact ⟨rfl, fun hb => absurd hl hb⟩
    · exact ⟨rfl, fun hb => ⟨hb, rfl, rfl⟩⟩
    · exact ⟨rfl, fun hb => ⟨hb, rfl, rfl⟩⟩
  · exact ⟨rfl, fun hb => ⟨hb, rfl, rfl⟩⟩
  · exact ⟨rfl, fun hb => ⟨hb, rfl, rfl⟩⟩
  · refine ⟨by simp, fun hb => ⟨?_, by simp, by simp⟩⟩
    rw [phaseNext_life]
    split
    · simp
    · exact hb

/-- Settles O59: commands write `S.cmd` alone of these elements, and `phaseNext_eq` names the phases that write the
others. -/
theorem registerWriters : Obligations.RegisterWriters := by
  intro s t h
  obtain ⟨-, ⟨i, rest, -, -, -, ha, rfl⟩ | ⟨rest, rfl⟩ | ⟨-, rfl⟩ | ⟨-, rfl⟩⟩ := step_cases h
  · obtain ⟨pin, cpu, -, -, -, he⟩ | ⟨-, -, he⟩ | ⟨p, c, hp, hl, -, he⟩ := commandEffect_cases ha <;> rw [he]
    · simp
    · simp
    · exact ⟨by simp, by simp, by simp, fun _ => ⟨hp, hl⟩, by simp⟩
  · simp [State.refuse]
  · simp
  · refine ⟨phaseNext_writes_lastTs (s := s.tick), phaseNext_writes_payload (s := s.tick), fun hne => ?_, by simp,
      phaseNext_writes_responses (s := s.tick)⟩
    obtain ⟨hp, w, -, hw⟩ := phaseNext_writes_pw (s := s.tick) hne
    exact ⟨hp, w, hw⟩

end Sys2Proof.Machine

/-! ## The width invariant (10_state.md sections 1 and 2, R20, R22, R23, R27, R29)

Every step keeps a predicate that accepted commands and the steps of the phases keep. For the widths: the counter
counts only below the ceiling, a stored width is at most the counter, and a clock value is reduced modulo
2^MS_BITS. -/

namespace Sys2Proof.Machine

/-- A predicate about the engine's own elements is kept by every step when the commands and the phases keep it. -/
theorem step_preserves {P : State → Prop} {s t : State}
    (hcalls : ∀ (s : State) (rest : List Byte), P s → P { s with calls := rest })
    (hrefuse : ∀ s : State, P s → P s.refuse) (htick : ∀ s : State, P s → P s.tick)
    (hcommand : ∀ (i : Instr) (s : State), WellFormed s.cfg.pinBytes i → commandAccepted i s = true → P s →
      P (commandEffect i s))
    (hphase : ∀ s : State, P s → P (phaseNext s)) (hs : P s) (h : step s = .next t) : P t := by
  obtain ⟨-, ⟨i, rest, -, -, hd, ha, rfl⟩ | ⟨rest, rfl⟩ | ⟨-, rfl⟩ | ⟨-, rfl⟩⟩ := step_cases h
  · exact hcommand i _ (decodeCommand_wellFormed hd) ha (hcalls s rest hs)
  · exact hrefuse _ (hcalls s rest hs)
  · exact hs
  · exact hphase _ (htick s hs)

theorem nextClock_lt (s : State) : s.nextClock < 2 ^ s.cfg.msBits := Nat.mod_lt _ (Nat.two_pow_pos _)

theorem pulseDone_count_le (w : Nat) (s : State) : (s.pulseDone w).count ≤ s.count := by
  obtain ⟨-, -, h⟩ | ⟨-, -, h⟩ | ⟨-, -, h⟩ | ⟨-, -, h⟩ | ⟨hi, -, h⟩ | ⟨-, -, h⟩ | ⟨-, -, -, h⟩ :=
    pulseDone_cases w s <;> simp [h]

/-- A poll counts only below the ceiling (R210, R215). -/
theorem poll_count_le (l : Level) (s : State) : (s.poll l).count ≤ max s.count s.maxCycles := by
  obtain ⟨-, hc, h⟩ | ⟨-, -, h⟩ | ⟨-, h⟩ := poll_cases l s <;> rw [h]
  · exact le_max_of_le_right hc
  · exact le_max_of_le_left (pulseDone_count_le 0 s)
  · exact le_max_of_le_left (pulseDone_count_le s.count s)

theorem phaseNext_count_le (s : State) : (phaseNext s).count ≤ max s.count s.maxCycles := by
  unfold phaseNext
  cases s.phase with
  | runAvail | runStamp | availQuery => rw [afterNowMs_eq]; exact le_max_left _ _
  | ackLow | ackHigh | capture => exact poll_count_le _ (s.takeLevel.emit _)
  | decode => obtain h | h := decodeStep_cases s <;> simp [h]
  | checksum => obtain ⟨-, h⟩ | ⟨-, h⟩ := checksumStep_cases s <;> simp [h]
  | stSettle | capMask => exact Nat.zero_le _
  | _ => exact le_max_left _ _

theorem widths_set_lt {pw : Widths} {b w : Nat} (h : ∀ v ∈ pw.toList, v < b) (hw : w < b) (j : Nat) (hj : j < 80) :
    ∀ v ∈ (pw.set j w hj).toList, v < b := by
  intro v hv
  rw [Vector.toList_set] at hv
  obtain hv | rfl := List.mem_or_eq_of_mem_set hv
  · exact h v hv
  · exact hw

theorem commandEffect_keeps_widths (i : Instr) (s : State) (hw : WellFormed s.cfg.pinBytes i)
    (ha : commandAccepted i s = true) (h : s.WidthInv) : (commandEffect i s).WidthInv := by
  obtain ⟨pin, cpu, rfl, -, hfit, he⟩ | ⟨-, -, he⟩ | ⟨p, c, -, -, -, he⟩ := commandEffect_cases ha <;> rw [he]
  · obtain ⟨-, -, hrest⟩ := h
    exact ⟨hw, hfit, hrest⟩
  · exact h
  · exact h

theorem phaseNext_keeps_widths (s : State) (h : s.WidthInv) : (phaseNext s).WidthInv := by
  obtain ⟨hpin, hmax, hcount, hts, hpw⟩ := h
  have hcount' : (phaseNext s).count < 2 ^ s.cfg.countBits := (phaseNext_count_le s).trans_lt (max_lt hcount hmax)
  have hts' : (phaseNext s).lastTs < 2 ^ s.cfg.msBits := by
    rw [phaseNext_lastTs]
    split_ifs
    · exact nextClock_lt s
    · exact elapsed_lt _ _ _
    · exact hts
  have hpw' : ∀ w ∈ (phaseNext s).pw.toList, w < 2 ^ s.cfg.countBits := by
    by_cases he : (phaseNext s).pw = s.pw
    · rwa [he]
    · obtain ⟨-, w, hw, hset⟩ := phaseNext_writes_pw he
      rw [hset]
      exact widths_set_lt hpw (hw.trans_lt hcount) _ _
  simp only [State.WidthInv, phaseNext_pin, phaseNext_maxCycles, phaseNext_cfg]
  exact ⟨hpin, hmax, hcount', hts', hpw'⟩

/-- Settles O54: a decoded pin fits its bytes, CONSTRUCT accepts a ceiling that fits, and phases keep the widths. -/
theorem stepKeepsWidths : Obligations.StepKeepsWidths := fun _ _ h hs =>
  step_preserves (fun _ _ h => h) (fun _ h => h) (fun _ h => h) commandEffect_keeps_widths phaseNext_keeps_widths h hs

end Sys2Proof.Machine

/-! ## The invariant of the engine's state (10_state.md sections 2 and 3; 41_protocol_run.md, R133)

From the stamp to the end of a run the engine is READY and its cached outcome invalid, so there the invariant asks
little of a next state (`State.Inv.goOn`); the entries to a run and its end are looked at one by one. -/

namespace Sys2Proof.Machine

/-- `S.masked` is true exactly in CAPTURE and CAP_UNMASK (R32). -/
theorem State.Inv.masked_iff {s : State} (h : s.Inv) :
    s.masked = true ↔ s.phase = .capture ∨ s.phase = .capUnmask := by
  obtain ⟨-, hmask, -⟩ := h
  exact hmask

/-- Outside IDLE and INIT_MODE the engine is READY (R109). -/
theorem State.Inv.ready {s : State} (h : s.Inv) (hi : s.phase ≠ .idle) (hm : s.phase ≠ .initMode) :
    s.life = .ready := by
  obtain ⟨-, -, hlife, -⟩ := h
  exact (hlife hi).resolve_right fun hb => hm hb.2

/-- A valid payload passes its checksum (R26). -/
theorem State.Inv.sound {s : State} (h : s.Inv) (hv : s.valid = true) : checksumOk s.payload = true := by
  obtain ⟨-, -, -, hsum, -⟩ := h
  exact hsum hv

/-- From the stamp on the engine is READY and its cached outcome invalid (R109, R133). -/
theorem State.Inv.running {s : State} (h : s.Inv) (hs : s.phase.afterStamp = true) :
    s.life = .ready ∧ s.valid = false := by
  have hi : s.phase ≠ .idle := by rintro hp; rw [hp] at hs; cases hs
  have hm : s.phase ≠ .initMode := by rintro hp; rw [hp] at hs; cases hs
  have hl := h.ready hi hm
  obtain ⟨-, -, -, -, hval, -⟩ := h
  exact ⟨hl, hval hs⟩

/-- What the invariant asks of a step from one phase after the stamp to another. -/
theorem State.Inv.goOn {s t : State} (h : s.Inv) (hs : s.phase.afterStamp = true) (hl : t.life = s.life)
    (hv : t.valid = s.valid) (ht : t.phase.afterStamp = true)
    (hm : t.masked = true ↔ t.phase = .capture ∨ t.phase = .capUnmask)
    (hc : t.phase.polls = true → t.count ≤ t.maxCycles)
    (hr : t.phase = .failReport → t.outcome.failed = true ∧ t.cfg.debugEnabled = true) : t.Inv := by
  obtain ⟨hready, hinvalid⟩ := h.running hs
  rw [hready] at hl
  rw [hinvalid] at hv
  have hf : t.phase ≠ .finish := by rintro hp; rw [hp] at ht; cases ht
  exact ⟨hc, hm, fun _ => .inl hl, by simp [hv], fun _ => hv, hr, fun hp => absurd hp hf, fun hp => absurd hp hf⟩

/-- A failure after the stamp, with `S.masked` false, keeps the invariant (R28, R301, R308). -/
theorem State.Inv.fail {k : OutcomeCode} {s : State} (h : s.Inv) (hk : k.failed = true)
    (hs : s.phase.afterStamp = true) (hm : s.masked = false) : (s.fail k).Inv := by
  obtain ⟨hp, hd⟩ | ⟨hp, -⟩ := failPhase_cases s.cfg
  · apply h.goOn hs <;> simp [hp, hd, hk, hm, Phase.afterStamp, Phase.polls]
  · obtain ⟨hl, hv⟩ := h.running hs
    have hok : k ≠ .ok := by rintro rfl; cases hk
    simp [State.Inv, hp, hv, hl, hok, hm, Phase.polls, Phase.afterStamp]

/-- The availability test, the stamp and AVAILABLE's answer keep the invariant (R102, R130, R132, R133). -/
theorem State.Inv.afterNowMs {s : State} (h : s.Inv) (t : Nat) : (s.afterNowMs t).Inv := by
  unfold State.afterNowMs
  cases hp : s.phase with
  | runAvail =>
    have hl := h.ready (by simp [hp]) (by simp [hp])
    have hm : s.masked = false := by simpa [hp] using h.masked_iff
    simp only
    split
    · simpa [State.Inv, hl, hm, Phase.polls, Phase.afterStamp] using h.sound
    · simpa [State.Inv, hl, hm, Phase.polls, Phase.afterStamp, OutcomeCode.failed] using h.sound
  | runStamp =>
    have hl := h.ready (by simp [hp]) (by simp [hp])
    have hm : s.masked = false := by simpa [hp] using h.masked_iff
    simp [State.Inv, hl, hm, Phase.polls]
  | availQuery =>
    have hm : s.masked = false := by simpa [hp] using h.masked_iff
    simpa [State.Inv, hm, Phase.polls, Phase.afterStamp] using h.sound
  | _ => exact h

/-- The return of a Pulse keeps the invariant (R155, R156, R170). -/
theorem State.Inv.pulseDone {s : State} (h : s.Inv) (w : Nat) : (s.pulseDone w).Inv := by
  obtain ⟨hp, -, he⟩ | ⟨hp, -, he⟩ | ⟨hp, -, he⟩ | ⟨hp, -, he⟩ | ⟨hi, hp, he⟩ | ⟨-, hp, he⟩ | ⟨-, -, -, he⟩ :=
    pulseDone_cases w s <;> rw [he]
  · exact h.fail rfl (by rw [hp]; rfl) (by simpa [hp] using h.masked_iff)
  · apply h.goOn (by rw [hp]; rfl) <;> simp [h.masked_iff, hp, Phase.afterStamp]
  · exact h.fail rfl (by rw [hp]; rfl) (by simpa [hp] using h.masked_iff)
  · apply h.goOn (by rw [hp]; rfl) <;> simp [h.masked_iff, hp, Phase.afterStamp, Phase.polls]
  · apply h.goOn (by rw [hp]; rfl) <;> simp [h.masked_iff, hp, Phase.afterStamp]
  · apply h.goOn (by rw [hp]; rfl) <;> simp [h.masked_iff, hp, Phase.afterStamp, Phase.polls]
  · exact h

/-- A poll keeps the invariant: it counts on only below the ceiling (R210, R215). -/
theorem State.Inv.poll {s : State} (h : s.Inv) (l : Level) : (s.poll l).Inv := by
  obtain ⟨-, hc, he⟩ | ⟨-, -, he⟩ | ⟨-, he⟩ := poll_cases l s <;> rw [he]
  · obtain ⟨-, hrest⟩ := h
    exact ⟨fun _ => hc, hrest⟩
  · exact h.pulseDone 0
  · exact h.pulseDone s.count

theorem State.Inv.decodeStep {s : State} (h : s.Inv) (hp : s.phase = .decode) : s.decodeStep.Inv := by
  obtain he | he := decodeStep_cases s <;> rw [he]
  · exact h.fail rfl (by rw [hp]; rfl) (by simpa [hp] using h.masked_iff)
  · apply h.goOn (by rw [hp]; rfl) <;> simp [h.masked_iff, hp, Phase.afterStamp, Phase.polls]

theorem State.Inv.checksumStep {s : State} (h : s.Inv) (hp : s.phase = .checksum) : s.checksumStep.Inv := by
  have hm : s.masked = false := by simpa [hp] using h.masked_iff
  obtain ⟨hk, he⟩ | ⟨-, he⟩ := checksumStep_cases s <;> rw [he]
  · have hl := h.ready (by simp [hp]) (by simp [hp])
    simp [State.Inv, hl, hk, hm, Phase.polls, Phase.afterStamp, OutcomeCode.failed]
  · exact h.fail rfl (by rw [hp]; rfl) hm

/-- The report of a failure leads to FINISH with an outcome that is not OK (R239, R301). -/
theorem State.Inv.reported {s : State} (h : s.Inv) (hp : s.phase = .failReport) : (s.goto .finish).Inv := by
  obtain ⟨hl, hv⟩ := h.running (by rw [hp]; rfl)
  have hm : s.masked = false := by simpa [hp] using h.masked_iff
  obtain ⟨-, -, -, -, -, hreport, -⟩ := h
  have hok : s.outcome ≠ .ok := by
    rintro ho
    have hk := (hreport hp).1
    rw [ho] at hk
    cases hk
  simp [State.Inv, hl, hv, hm, hok, Phase.polls, Phase.afterStamp]

theorem phaseNext_keeps_inv (s : State) (h : s.Inv) : (phaseNext s).Inv := by
  unfold phaseNext
  cases hp : s.phase with
  | idle => exact h
  | runAvail | runStamp | availQuery => exact State.Inv.afterNowMs (s := s.takeClock.emit _) h _
  | stIdleHigh | stIdleWait | stOutput | stWakeLow | stWakeWait | stEndHigh | stEndWait | stRelease | stSettle
  | capMask | capUnmask =>
    apply h.goOn (by rw [hp]; rfl) <;> simp [h.masked_iff, hp, Phase.afterStamp, Phase.polls]
  | ackLow | ackHigh | capture => exact State.Inv.poll (s := s.takeLevel.emit _) h _
  | decode => exact h.decodeStep hp
  | checksum => exact h.checksumStep hp
  | failReport => exact State.Inv.reported (s := s.emit _) h hp
  | finish | initMode =>
    have hm : s.masked = false := by simpa [hp] using h.masked_iff
    simpa [State.Inv, State.finishRun, hm, Phase.polls, Phase.afterStamp] using h.sound

theorem commandEffect_keeps_inv (i : Instr) (s : State) (ha : commandAccepted i s = true) (h : s.Inv) :
    (commandEffect i s).Inv := by
  obtain ⟨pin, cpu, -, -, -, he⟩ | ⟨hp, hl, he⟩ | ⟨p, c, hp, hl, rfl | rfl, he⟩ := commandEffect_cases ha <;> rw [he]
  · simp [State.Inv, Phase.polls, Phase.afterStamp]
  all_goals have hm : s.masked = false := by simpa [hp] using h.masked_iff
  · simpa [State.Inv, hm, hl.symm, Phase.polls, Phase.afterStamp] using h.sound
  · simpa [State.Inv, hm, hl, Phase.polls, Phase.afterStamp] using h.sound
  · simpa [State.Inv, hm, hl, Phase.polls, Phase.afterStamp] using h.sound

/-- Settles O53: accepted commands start only from IDLE, where little is asked, and each phase keeps the invariant. -/
theorem stepKeepsInvariant : Obligations.StepKeepsInvariant := fun _ _ h hs =>
  step_preserves (fun _ _ h => h) (fun _ h => h) (fun _ h => h) (fun i s _ => commandEffect_keeps_inv i s)
    phaseNext_keeps_inv h hs

end Sys2Proof.Machine

/-! ## The event of a step (20_memory.md section 6, R60; 10_state.md section 3, R28)

A phase that issues a host request appends that request with its answer, FINISH appends RUN_END, and no other step of
a phase appends anything; an accepted or refused command leaves the trace as it is. -/

namespace Sys2Proof.Machine

/-- The event the step of the phase appends to the trace: its host request with the answer, or RUN_END. -/
def phaseEvent (s : State) : Option Event :=
  match s.phase with
  | .idle | .decode | .checksum => none
  | .runAvail | .runStamp | .availQuery => some (.nowMs s.nextClock)
  | .stIdleHigh | .stEndHigh => some (.write s.pin .high)
  | .stWakeLow => some (.write s.pin .low)
  | .stIdleWait => some (.delayMs s.cfg.idleHighMs)
  | .stWakeWait => some (.delayMs s.cfg.wakeLowMs)
  | .stEndWait => some (.delayUs s.cfg.endHighUs)
  | .stSettle => some (.delayUs s.cfg.settleUs)
  | .stOutput => some (.setMode s.pin .output)
  | .stRelease => some (.setMode s.pin s.cfg.releaseMode)
  | .initMode => some (.setMode s.pin .inputPullup)
  | .ackLow | .ackHigh | .capture => some (.read s.pin s.nextLevel)
  | .capMask => some .preemptOff
  | .capUnmask => some .preemptOn
  | .failReport => some (.debug s.outcome.code)
  | .finish => some (.runEnd s.outcome)

@[simp] theorem phaseEvent_tick (s : State) : phaseEvent s.tick = phaseEvent s := rfl

@[simp] theorem poll_trace (l : Level) (s : State) : (s.poll l).trace = s.trace := by rw [poll_eq]

@[simp] theorem afterNowMs_trace (t : Nat) (s : State) : (s.afterNowMs t).trace = s.trace := by rw [afterNowMs_eq]

@[simp] theorem decodeStep_trace (s : State) : s.decodeStep.trace = s.trace := by
  obtain h | h := decodeStep_cases s <;> simp [h]

@[simp] theorem checksumStep_trace (s : State) : s.checksumStep.trace = s.trace := by
  obtain ⟨-, h⟩ | ⟨-, h⟩ := checksumStep_cases s <;> simp [h]

@[simp] theorem commandEffect_trace (i : Instr) (s : State) : (commandEffect i s).trace = s.trace := by
  cases i <;> rfl

/-- The step of a phase appends the event of the phase, where it has one, and nothing else. -/
theorem phaseNext_trace (s : State) : (phaseNext s).trace = s.trace ++ (phaseEvent s).toList := by
  unfold phaseNext phaseEvent
  cases s.phase with
  | runAvail | runStamp | availQuery | ackLow | ackHigh | capture | decode | checksum => simp
  | idle => exact (List.append_nil s.trace).symm
  | _ => rfl

/-- A step leaves the trace as it is or appends the event of the phase it is taken in. -/
theorem step_trace {s t : State} (h : step s = .next t) :
    t.trace = s.trace ∨ ∃ e, phaseEvent s = some e ∧ t.trace = s.trace ++ [e] := by
  obtain ⟨-, ⟨i, rest, -, -, -, -, rfl⟩ | ⟨rest, rfl⟩ | ⟨-, rfl⟩ | ⟨-, rfl⟩⟩ := step_cases h
  · exact .inl (commandEffect_trace i _)
  · exact .inl rfl
  · exact .inl rfl
  · rw [phaseNext_trace, phaseEvent_tick, State.tick_trace]
    cases phaseEvent s with
    | none => exact .inl (List.append_nil s.trace)
    | some e => exact .inr ⟨e, rfl, rfl⟩

/-- Settles O11: what a step appends is at most the one event of its phase. -/
theorem oneEventAtMostPerStep : Obligations.OneEventAtMostPerStep := fun _ _ h =>
  (step_trace h).imp_right fun ⟨e, _, he⟩ => ⟨e, he⟩

end Sys2Proof.Machine

/-! ## Decoding and encoding (30_encoding.md, R70 to R77)

The code of an instruction selects its interface, and each interface reads only encodings: every operand decoder
answers just the operand whose bytes it was given. -/

namespace Sys2Proof

/-- The codes below 0x80 are the commands' (R73, R77). -/
theorem opcode_lt_iff (i : Instr) : (opcode i).toNat < 0x80 ↔ i.isCommand = true := by
  cases i <;> simp [opcode, Instr.isCommand]

/-- An encoded instruction is read by its own interface. -/
theorem decode_encode (k : Nat) (i : Instr) (rest : List Byte) :
    decode k (encode k i ++ rest) =
      if i.isCommand = true then decodeCommand k (encode k i ++ rest) else decodeRequest k (encode k i ++ rest) :=
  if_congr (opcode_lt_iff i) rfl rfl

/-- What decodes was read by one of the two interfaces. -/
theorem decode_eq_ok {k : Nat} {bs : List Byte} {r : Instr × List Byte} (h : decode k bs = .ok r) :
    decodeCommand k bs = .ok r ∨ decodeRequest k bs = .ok r := by
  cases bs with
  | nil => cases h
  | cons op bs =>
    rw [decode] at h
    split at h
    · exact .inl h
    · exact .inr h

/-- `withOperand_eq_ok` for an operand that is a pin. -/
theorem withOperand_pin_eq_ok {k : Nat} {bs : List Byte} {go : PinId → List Byte → Decoded} {r : Instr × List Byte}
    (h : withOperand k bs (fun p => go ⟨p⟩) = .ok r) :
    ∃ (p : PinId) (rest : List Byte), p.fits k = true ∧ bs = p.bytes k ++ rest ∧ go p rest = .ok r := by
  obtain ⟨n, rest, hn, hbs, hgo⟩ := withOperand_eq_ok h
  exact ⟨⟨n⟩, rest, PinId.fits_iff.2 hn, hbs, hgo⟩

theorem decodeWord_eq_ok {mk : Word32 → Instr} {bs rest : List Byte} {i : Instr}
    (h : decodeWord mk bs = .ok (i, rest)) : ∃ w, i = mk w ∧ bs = wordBytes w ++ rest := by
  obtain ⟨n, bs', hn, hbs, hi⟩ := withOperand_eq_ok h
  cases hi
  refine ⟨_, rfl, ?_⟩
  rw [wordBytes, BitVec.toNat_ofNat, Nat.mod_eq_of_lt (by exact hn), hbs]

theorem decodeMode_eq_ok {pin : PinId} {bs rest : List Byte} {i : Instr}
    (h : decodeMode pin bs = .ok (i, rest)) :
    ∃ m : BitVec 2, m ≠ 0b11#2 ∧ i = .setMode pin m ∧ bs = m.setWidth 8 :: rest := by
  cases bs with
  | nil => cases h
  | cons b bs =>
    rw [decodeMode] at h
    split at h
    next hle =>
      cases h
      have hb : b = 0 ∨ b = 1 ∨ b = 2 := by bv_omega
      exact ⟨_, by obtain rfl | rfl | rfl := hb <;> decide, rfl, by obtain rfl | rfl | rfl := hb <;> rfl⟩
    next => cases h

theorem decodeLevel_eq_ok {pin : PinId} {bs rest : List Byte} {i : Instr}
    (h : decodeLevel pin bs = .ok (i, rest)) : ∃ l : Level, i = .write pin l ∧ bs = l.code :: rest := by
  cases bs with
  | nil => cases h
  | cons b bs =>
    rw [decodeLevel] at h
    split_ifs at h <;> subst b
    · cases h; exact ⟨.low, rfl, rfl⟩
    · cases h; exact ⟨.high, rfl, rfl⟩

theorem decodeDebug_eq_ok {bs rest : List Byte} {i : Instr} (h : decodeDebug bs = .ok (i, rest)) :
    ∃ c : Byte, c.toNat ≤ 4 ∧ i = .debug c ∧ bs = c :: rest := by
  cases bs with
  | nil => cases h
  | cons c bs =>
    rw [decodeDebug] at h
    split at h
    next hc => cases h; exact ⟨c, hc, rfl, rfl⟩
    next => cases h

/-- The command interface reads only encodings (R73). -/
theorem decodeCommand_eq_encode {k : Nat} {bs rest : List Byte} {i : Instr}
    (h : decodeCommand k bs = .ok (i, rest)) : bs = encode k i ++ rest := by
  cases bs with
  | nil => cases h
  | cons op bs =>
    rw [decodeCommand] at h
    split_ifs at h <;> subst op
    · obtain ⟨p, bs', -, rfl, hw⟩ := withOperand_pin_eq_ok (go := fun p => decodeWord (.construct p)) h
      obtain ⟨w, rfl, rfl⟩ := decodeWord_eq_ok hw
      simp [encode, opcode, operandBytes]
    all_goals cases h; rfl

/-- The platform interface reads only well-formed requests, each from its encoding (R77). -/
theorem decodeRequest_eq_encode {k : Nat} {bs rest : List Byte} {i : Instr}
    (h : decodeRequest k bs = .ok (i, rest)) : WellFormed k i ∧ bs = encode k i ++ rest := by
  cases bs with
  | nil => cases h
  | cons op bs =>
    rw [decodeRequest] at h
    split_ifs at h <;> subst op
    · obtain ⟨p, bs', hp, rfl, hm⟩ := withOperand_pin_eq_ok (go := decodeMode) h
      obtain ⟨m, hne, rfl, rfl⟩ := decodeMode_eq_ok hm
      exact ⟨by simp [WellFormed, wellFormed, hp, hne], by simp [encode, opcode, operandBytes]⟩
    · obtain ⟨p, bs', hp, rfl, hl⟩ := withOperand_pin_eq_ok (go := decodeLevel) h
      obtain ⟨l, rfl, rfl⟩ := decodeLevel_eq_ok hl
      exact ⟨hp, by simp [encode, opcode, operandBytes]⟩
    · obtain ⟨p, bs', hp, rfl, hi⟩ := withOperand_pin_eq_ok (go := fun p r => .ok (.read p, r)) h
      cases hi
      exact ⟨hp, rfl⟩
    · cases h; exact ⟨rfl, rfl⟩
    · obtain ⟨n, rfl, rfl⟩ := decodeWord_eq_ok h
      exact ⟨rfl, rfl⟩
    · obtain ⟨n, rfl, rfl⟩ := decodeWord_eq_ok h
      exact ⟨rfl, rfl⟩
    · cases h; exact ⟨rfl, rfl⟩
    · cases h; exact ⟨rfl, rfl⟩
    · obtain ⟨c, hc, rfl, rfl⟩ := decodeDebug_eq_ok h
      exact ⟨decide_eq_true hc, rfl⟩

/-- Settles O1: the code selects the interface, and each interface reads its own instructions back. -/
theorem decodeOfEncode : Obligations.DecodeOfEncode := by
  intro k i rest hw
  rw [decode_encode]
  split
  next hi => exact decodeCommand_encode hw hi rest
  next hi => exact decodeRequest_encode hw (Bool.eq_false_of_not_eq_true hi) rest

/-- Settles O2: each of the two interfaces reads only well-formed instructions, from their encodings. -/
theorem encodeOfDecode : Obligations.EncodeOfDecode := by
  intro k bs i rest h
  obtain hc | hr := decode_eq_ok h
  · exact ⟨decodeCommand_wellFormed hc, decodeCommand_eq_encode hc⟩
  · exact decodeRequest_eq_encode hr

/-- Settles O3: each word is laid out and decoded. -/
theorem tableWordsDecode : Obligations.TableWordsDecode :=
  ⟨rfl, rfl, rfl, rfl, rfl, rfl, rfl, rfl, rfl, rfl, rfl, rfl, rfl, rfl⟩

/-- An operand is rejected where its bytes end too early, or by what goes on after it. -/
theorem withOperand_eq_error {k : Nat} {bs : List Byte} {go : Nat → List Byte → Decoded} {e : Reject}
    (h : withOperand k bs go = .error e) : e = .truncated ∨ ∃ n rest, go n rest = .error e := by
  unfold withOperand at h
  split at h
  next n rest _ => exact .inr ⟨n, rest, h⟩
  next => cases h; exact .inl rfl

/-- The operands of CONSTRUCT are rejected only where they end too early. -/
theorem decodeConstruct_error {k : Nat} {bs : List Byte} {e : Reject} (h : decodeConstruct k bs = .error e) :
    e = .truncated := by
  obtain rfl | ⟨p, bs', hw⟩ := withOperand_eq_error h
  · rfl
  obtain rfl | ⟨c, rest, hc⟩ := withOperand_eq_error hw
  · rfl
  · cases hc

/-- R74: exactly 0x00 and the codes from 0x06 on select no command. -/
theorem decodeCommand_unassigned_iff (k : Nat) (op : Byte) (rest : List Byte) :
    decodeCommand k (op :: rest) = .error (.unassignedOpcode op) ↔ op = 0 ∨ 6 ≤ op.toNat := by
  rw [decodeCommand]
  split_ifs
  · subst op
    exact iff_of_false (fun h => nomatch decodeConstruct_error h) (by decide)
  case neg => exact iff_of_true rfl (by bv_omega)
  all_goals
    subst op
    exact iff_of_false (fun h => nomatch h) (by decide)

end Sys2Proof

namespace Sys2Proof.Machine

/-- Where a command is taken, a code that selects none is refused (R74, R109). -/
theorem step_unassigned {s : State} {op : Byte} (hr : s.refused = false) (hl : s.phase = .idle ∨ s.reentry = some 0)
    (hd : decodeCommand s.cfg.pinBytes s.calls = .error (.unassignedOpcode op)) : step s = .next s.refuse := by
  have hf : fetch s = .unassigned := by simp [fetch, State.listens, hl, hd]
  unfold step cycle
  rw [if_neg (by simp [hr]), hf]

/-- Settles O4: the decoder answers exactly these codes as unassigned, and the step refuses what it so answers. -/
theorem reservedOpcodesAreRefused : Obligations.ReservedOpcodesAreRefused := by
  refine ⟨decodeCommand_unassigned_iff, fun s op rest hr hl hc hop => step_unassigned (op := op) hr hl ?_⟩
  rw [hc]
  exact (decodeCommand_unassigned_iff _ op rest).2 hop

/-- Settles O21: 0b11 is the code of no mode. -/
theorem reservedModeIsRefused : Obligations.ReservedModeIsRefused := by
  intro s pin hr
  have hc : Mode.ofCode 0b11 = none := rfl
  show execSetMode pin 0b11 s = _
  rw [execSetMode, hc, if_neg (by simp [hr])]

end Sys2Proof.Machine

/-! ## The values of two payload bytes (30_encoding.md, R79 to R82)

A temperature's magnitude has 15 bits, so only the negative of 1 is 0xFFFF; a humidity is its two bytes. -/

namespace Sys2Proof.Machine

theorem temperatureMagnitude_toNat (h l : Byte) :
    (temperatureMagnitude h l).toNat = h.toNat % 128 * 256 + l.toNat := by
  have hl := l.isLt
  rw [temperatureMagnitude, BitVec.toNat_setWidth, BitVec.toNat_append, BitVec.extractLsb'_toNat, Nat.shiftRight_zero,
    ← Nat.shiftLeft_add_eq_or_of_lt hl, Nat.shiftLeft_eq]
  omega

theorem decodeHumidity_toNat (h l : Byte) : (decodeHumidity h l).toNat = h.toNat * 256 + l.toNat := by
  have hl := l.isLt
  have hh := h.isLt
  rw [decodeHumidity, BitVec.toNat_setWidth, BitVec.toNat_append, ← Nat.shiftLeft_add_eq_or_of_lt hl, Nat.shiftLeft_eq]
  omega

/-- The sign bit of a temperature (R81). -/
theorem getLsbD_seven_eq_decide (h : Byte) : h.getLsbD 7 = decide (128 ≤ h.toNat) :=
  BitVec.msb_eq_decide h

theorem decodeTemperature_eq_sentinel_iff (h l : Byte) : decodeTemperature h l = 0xFFFF ↔ h = 0x80 ∧ l = 0x01 := by
  have hm := temperatureMagnitude_toNat h l
  unfold decodeTemperature
  rw [getLsbD_seven_eq_decide]
  split
  next hs =>
    have hneg : 128 ≤ h.toNat := of_decide_eq_true hs
    bv_omega
  next hs =>
    have hpos : ¬ 128 ≤ h.toNat := of_decide_eq_false (Bool.eq_false_of_not_eq_true hs)
    bv_omega

theorem decodeHumidity_eq_sentinel_iff (h l : Byte) : decodeHumidity h l = 0xFFFF ↔ h = 0xFF ∧ l = 0xFF := by
  have hv := decodeHumidity_toNat h l
  bv_omega

/-- Settles O45: a failed read answers SENTINEL, and each decoder takes it at one pair of bytes alone. -/
theorem sentinelCollisions : Obligations.SentinelCollisions :=
  ⟨fun _ _ => rfl, decodeTemperature_eq_sentinel_iff, decodeHumidity_eq_sentinel_iff⟩

end Sys2Proof.Machine

/-! ## The caller's commands (40_commands.md, R100 to R104, R108, R109)

A command is its effect where R109 admits it and a refusal where it does not; an admitted one that starts a phase is
answered by the step of that phase. -/

namespace Sys2Proof.Machine

theorem exec_not_accepted {i : Instr} {s : State} (hi : i.isCommand = true) (hr : s.refused = false)
    (ha : ¬ commandAccepted i s = true) : exec i s = .next s.refuse := by
  rw [exec_command hi, command_next]
  exact ⟨hr, .inr ⟨Bool.eq_false_of_not_eq_true ha, rfl⟩⟩

/-- R100 admits CONSTRUCT by the stage and the exact product. -/
theorem commandAccepted_construct_iff {pin : PinId} {cpu : Word32} {s : State} :
    commandAccepted (.construct pin cpu) s = true ↔
      s.life = .unbuilt ∧ s.cfg.timeoutUs * cpu.toNat < 2 ^ s.cfg.countBits := by
  simp [commandAccepted]

/-- Settles O12: the command is accepted, and its effect is R100's. -/
theorem constructSetsUpEngine : Obligations.ConstructSetsUpEngine :=
  fun _ _ _ hr hl hm => exec_accepted rfl hr (commandAccepted_construct_iff.2 ⟨hl, hm⟩)

/-- Settles O13: each command outside its row of R109 is not accepted, and is refused. -/
theorem commandsRefusedUnlessAdmitted : Obligations.CommandsRefusedUnlessAdmitted := by
  intro s hr
  refine ⟨fun pin cpu hn => exec_not_accepted rfl hr (mt commandAccepted_construct_iff.1 hn),
    fun hn => exec_not_accepted rfl hr (mt admitsInit_iff.1 hn), fun hn => ?_⟩
  have ha : ¬ admitsQuery s = true := mt admitsQuery_iff.1 hn
  exact ⟨exec_not_accepted rfl hr ha, exec_not_accepted rfl hr ha, exec_not_accepted rfl hr ha⟩

/-! ### A command and the step of the phase it starts -/

@[simp] theorem commandEffect_refused (i : Instr) (s : State) : (commandEffect i s).refused = s.refused := by
  cases i <;> rfl

theorem commandEffect_quietFor {n : Nat} {s : State} (i : Instr) (h : s.quietFor n) : (commandEffect i s).quietFor n := by
  cases i <;> exact h

/-- A command taken at IDLE and the step of the phase it starts, no command being issued in between (logs 10, 11). -/
theorem steps_command_phase {s t : State} {i : Instr} {rest : List Byte} (hr : s.refused = false) (hp : s.phase = .idle)
    (hd : decodeCommand s.cfg.pinBytes s.calls = .ok (i, rest))
    (ha : commandAccepted i { s with calls := rest } = true)
    (hn : (commandEffect i { s with calls := rest }).phase ≠ .idle) (hq : { s with calls := rest }.quietFor 1)
    (ht : phaseNext ((commandEffect i { s with calls := rest }).tickBy 1) = t) : Steps 2 s t := by
  have hcmd : step s = .next (commandEffect i { s with calls := rest }) :=
    (step_command hr hp hd).trans (exec_accepted (decodeCommand_isCommand hd) hr ha)
  have hphase := step_quiet (by simpa using hr) hn (commandEffect_quietFor i hq)
  exact steps_succ hcmd (steps_one (ht ▸ hphase))

/-- The step of INIT_MODE (R28, R101). -/
theorem phaseNext_initMode {s : State} (hp : s.phase = .initMode) :
    phaseNext s = { s with
      trace := s.trace ++ [.setMode s.pin .inputPullup]
      lastTs := elapsed s.cfg.msBits 0 s.cfg.minIntervalMs, life := .ready, phase := .idle } := by
  rw [phaseNext, hp]
  rfl

/-- A listed answer that fits the clock is NOW_MS's answer (R9, R234). -/
theorem nextClock_of_listed {s : State} {t : Nat} {ts : List Nat} (hc : s.clockAnswers = t :: ts)
    (ht : t < 2 ^ s.cfg.msBits) : s.nextClock = t := by
  simpa [State.nextClock, hc] using Nat.mod_eq_of_lt ht

/-- A listed answer takes no free value (log 3). -/
theorem takeClock_of_listed {s : State} {t : Nat} {ts : List Nat} (hc : s.clockAnswers = t :: ts) :
    s.takeClock = { s with clockAnswers := ts } := by
  simp [State.takeClock, hc]

/-- The step of AVAIL_QUERY with a listed answer (R28, R102). -/
theorem phaseNext_availQuery {s : State} {t : Nat} {ts : List Nat} (hp : s.phase = .availQuery)
    (hc : s.clockAnswers = t :: ts) (ht : t < 2 ^ s.cfg.msBits) :
    phaseNext s = { s with
      clockAnswers := ts, trace := s.trace ++ [.nowMs t]
      responses := s.responses ++ [.bit (avail s.cfg t s.lastTs)], phase := .idle } := by
  have hs : phaseNext s = (s.takeClock.emit (.nowMs s.nextClock)).afterNowMs s.nextClock := by rw [phaseNext, hp]
  rw [hs, nextClock_of_listed hc ht, takeClock_of_listed hc, State.afterNowMs, State.emit_phase, hp]
  rfl

/-- Settles O15: INITIALIZE starts INIT_MODE, whose step sets the mode, primes `S.lastTs` and returns to IDLE. -/
theorem initializePrimesTimestamp : Obligations.InitializePrimesTimestamp := by
  intro s rest hr hl hp hcalls hq
  have hd : decodeCommand s.cfg.pinBytes s.calls = .ok (.initializeCmd, rest) := by rw [hcalls]; rfl
  rw [hp]
  exact steps_command_phase hr hp hd (admitsInit_iff.2 ⟨hl, hp⟩) nofun hq (phaseNext_initMode rfl)

/-- Settles O16: AVAILABLE starts AVAIL_QUERY, whose step asks the clock once, responds and returns to IDLE. -/
theorem availableRespondsWithoutEffect : Obligations.AvailableRespondsWithoutEffect := by
  intro s rest t ts hr hl hp hcalls hq hc ht
  have hd : decodeCommand s.cfg.pinBytes s.calls = .ok (.available, rest) := by rw [hcalls]; rfl
  rw [hp]
  exact steps_command_phase hr hp hd (admitsQuery_iff.2 ⟨hl, hp⟩) nofun hq (phaseNext_availQuery rfl hc ht)

/-! ### The elapsed interval (R108) -/

/-- Both sides differ by a multiple of `2 ^ b`: what `last` holds above its residue. -/
theorem elapsed_eq_emod (b t last : Nat) : (elapsed b t last : Int) = ((t : Int) - last) % 2 ^ b := by
  have hle : last % 2 ^ b ≤ 2 ^ b := (Nat.mod_lt _ (Nat.two_pow_pos b)).le
  have hdiv : (last : Int) % 2 ^ b + 2 ^ b * (last / 2 ^ b) = last := Int.emod_add_mul_ediv _ _
  calc (elapsed b t last : Int)
      = ((t : Int) + (2 ^ b - (last : Int) % 2 ^ b)) % 2 ^ b := by
        unfold elapsed
        push_cast [Nat.cast_sub hle]
        rfl
    _ = ((t : Int) - last + 2 ^ b * (1 + (last : Int) / 2 ^ b)) % 2 ^ b := by
        congr 1
        linear_combination -hdiv
    _ = ((t : Int) - last) % 2 ^ b := Int.add_mul_emod_self_left _ _ _

/-- Settles O18: `Avail` compares the elapsed time, which is the difference modulo `2 ^ msBits`. -/
theorem availIsElapsedInterval : Obligations.AvailIsElapsedInterval := by
  refine ⟨elapsed_eq_emod, fun c t last => ?_⟩
  rw [avail_iff, ← elapsed_eq_emod, Int.ofNat_le]

end Sys2Proof.Machine

/-! ## The value decoders (40_commands.md, R106, R107) -/

namespace Sys2Proof.Machine

/-- The magnitude has 15 bits (R81), so it and its negative keep their value as signed words. -/
theorem decodeTemperature_toInt (h l : Byte) :
    (decodeTemperature h l).toInt =
      (if 128 ≤ h.toNat then -((h.toNat % 128 * 256 + l.toNat : Nat) : Int)
      else ((h.toNat % 128 * 256 + l.toNat : Nat) : Int)) := by
  have hm := temperatureMagnitude_toNat h l
  have hpos : (temperatureMagnitude h l).toInt = ((h.toNat % 128 * 256 + l.toNat : Nat) : Int) := by
    rw [BitVec.toInt_eq_toNat_of_lt (by omega), hm]
  have hne : temperatureMagnitude h l ≠ BitVec.intMin 16 := by
    intro he
    have hv : (temperatureMagnitude h l).toNat = 2 ^ 15 := by rw [he]; rfl
    omega
  unfold decodeTemperature
  rw [getLsbD_seven_eq_decide]
  simp only [decide_eq_true_eq]
  split
  · rw [zero_sub, BitVec.toInt_neg_of_ne_intMin hne, hpos]
  · exact hpos

/-- Settles O43: 0x8000 is -32768, below minus any 15-bit magnitude. -/
theorem temperatureIsSignMagnitude : Obligations.TemperatureIsSignMagnitude := by
  refine fun h l => ⟨decodeTemperature_toInt h l, fun he => ?_⟩
  have hv := decodeTemperature_toInt h l
  have hmin : (0x8000 : Word16).toInt = -32768 := rfl
  rw [he, hmin] at hv
  split at hv <;> omega

/-- Settles O44: a word is its own high and low byte. -/
theorem humidityIsBigEndian : Obligations.HumidityIsBigEndian := by
  refine ⟨decodeHumidity_toNat, fun w => ⟨w.extractLsb' 8 8, w.extractLsb' 0 8, ?_⟩⟩
  rw [← BitVec.toNat_inj, decodeHumidity_toNat, BitVec.extractLsb'_toNat, BitVec.extractLsb'_toNat]
  have hw := w.isLt
  omega

end Sys2Proof.Machine

/-! ## Runs of phases (10_state.md section 3, R28; 41_protocol_run.md)

While no command is issued a run is its phases' steps one after the other, and the countdown of a caller that does not
wait (log 11) runs beside them: what the phases do is said with `PhaseRun`, and `PhaseRun.steps` adds the countdown. -/

namespace Sys2Proof.Machine

/-- `n` steps of phases lead from `s` to `t`, each of them taken outside IDLE. -/
def PhaseRun : Nat → State → State → Prop
  | 0, s, t => s = t
  | n + 1, s, t => s.phase ≠ .idle ∧ PhaseRun n (phaseNext s) t

theorem PhaseRun.trans {m n : Nat} {s t u : State} (h : PhaseRun m s t) (h' : PhaseRun n t u) :
    PhaseRun (m + n) s u := by
  induction m generalizing s with
  | zero => obtain rfl := h; rwa [Nat.zero_add]
  | succ m ih =>
    obtain ⟨hp, h⟩ := h
    rw [Nat.add_right_comm]
    exact ⟨hp, ih h⟩

theorem PhaseRun.one {s t : State} (hp : s.phase ≠ .idle) (h : phaseNext s = t) : PhaseRun 1 s t := ⟨hp, h⟩

/-! ### The countdown beside the phases -/

/-- The failure entry neither reads nor writes the countdown. -/
theorem fail_tickBy (k : OutcomeCode) (n : Nat) (s : State) : (s.tickBy n).fail k = (s.fail k).tickBy n := by
  cases k <;> rfl

theorem pulseDone_tickBy (w n : Nat) (s : State) : (s.tickBy n).pulseDone w = (s.pulseDone w).tickBy n := by
  unfold State.pulseDone State.nextPulse
  cases s.phase with
  | ackLow | ackHigh =>
    simp only
    split
    · exact fail_tickBy _ n s
    · rfl
  | capture => simp only; split <;> rfl
  | _ => rfl

theorem poll_tickBy (l : Level) (n : Nat) (s : State) : (s.tickBy n).poll l = (s.poll l).tickBy n := by
  have ha : (s.tickBy n).awaited = s.awaited := rfl
  unfold State.poll
  rw [ha]
  cases pollResult s.awaited l s.count s.maxCycles with
  | none => rfl
  | some w => exact pulseDone_tickBy w n s

theorem afterNowMs_tickBy (t n : Nat) (s : State) : (s.tickBy n).afterNowMs t = (s.afterNowMs t).tickBy n := by
  unfold State.afterNowMs
  cases s.phase with
  | runAvail => simp only; split <;> rfl
  | _ => rfl

theorem decodeStep_tickBy (n : Nat) (s : State) : (s.tickBy n).decodeStep = s.decodeStep.tickBy n := by
  unfold State.decodeStep
  simp only
  split
  · exact fail_tickBy _ n s
  · rfl

theorem checksumStep_tickBy (n : Nat) (s : State) : (s.tickBy n).checksumStep = s.checksumStep.tickBy n := by
  unfold State.checksumStep
  simp only
  split
  · rfl
  · exact fail_tickBy _ n s

/-- The step of a phase neither reads nor writes the countdown. -/
theorem phaseNext_tickBy (n : Nat) (s : State) : phaseNext (s.tickBy n) = (phaseNext s).tickBy n := by
  unfold phaseNext
  cases s.phase with
  | runAvail | runStamp | availQuery => exact afterNowMs_tickBy _ n (s.takeClock.emit _)
  | ackLow | ackHigh | capture => exact poll_tickBy _ n (s.takeLevel.emit _)
  | decode => exact decodeStep_tickBy n s
  | checksum => exact checksumStep_tickBy n s
  | _ => rfl

theorem PhaseRun.tickBy {n : Nat} {s t : State} (h : PhaseRun n s t) (k : Nat) :
    PhaseRun n (s.tickBy k) (t.tickBy k) := by
  induction n generalizing s with
  | zero => exact congrArg (State.tickBy k) h
  | succ n ih =>
    obtain ⟨hp, h⟩ := h
    exact ⟨hp, phaseNext_tickBy k s ▸ ih h⟩

@[simp] theorem phaseNext_refused (s : State) : (phaseNext s).refused = s.refused := by rw [phaseNext_eq]
@[simp] theorem phaseNext_calls (s : State) : (phaseNext s).calls = s.calls := by rw [phaseNext_eq]
@[simp] theorem phaseNext_reentry (s : State) : (phaseNext s).reentry = s.reentry := by rw [phaseNext_eq]

/-- Where no command is issued, the machine takes the steps of the phases, and the countdown goes on (log 11). -/
theorem PhaseRun.steps {n : Nat} {s t : State} (h : PhaseRun n s t) (hr : s.refused = false) (hq : s.quietFor n) :
    Steps n s (t.tickBy n) := by
  induction n generalizing s t with
  | zero => obtain rfl := h; simp
  | succ n ih =>
    obtain ⟨hp, h⟩ := h
    have hq1 : s.quietFor (1 + n) := by rwa [Nat.add_comm]
    have hq' : ((phaseNext s).tickBy 1).quietFor n := hq1.tickBy.congr (by simp) (by simp) (by simp)
    have hrest := ih (h.tickBy 1) (by simpa using hr) hq'
    rw [State.tickBy_tickBy, Nat.add_comm, ← phaseNext_tickBy] at hrest
    exact steps_succ (step_quiet hr hp (hq.mono (by omega))) hrest

end Sys2Proof.Machine

/-! ## The bound of a run (41_protocol_run.md, R136, R137)

Every step outside IDLE spends one of the host requests that are left or one of the internal steps that are left. A
whole Pulse is `S.maxCycles + 1` polls at most, one in progress as many as its counter leaves. -/

namespace Sys2Proof.Machine

/-- The host requests a run can still issue (R136). -/
def State.requestsLeft (s : State) : Nat :=
  let pulse := s.maxCycles + 1
  let inProgress := s.maxCycles - s.count + 1
  match s.phase with
  | .runAvail => 14 + 82 * pulse
  | .runStamp => 13 + 82 * pulse
  | .stIdleHigh => 12 + 82 * pulse
  | .stIdleWait => 11 + 82 * pulse
  | .stOutput => 10 + 82 * pulse
  | .stWakeLow => 9 + 82 * pulse
  | .stWakeWait => 8 + 82 * pulse
  | .stEndHigh => 7 + 82 * pulse
  | .stEndWait => 6 + 82 * pulse
  | .stRelease => 5 + 82 * pulse
  | .stSettle => 4 + 82 * pulse
  | .ackLow => 3 + 81 * pulse + inProgress
  | .ackHigh => 3 + 80 * pulse + inProgress
  | .capMask => 3 + 80 * pulse
  | .capture => 2 + (79 - s.idx.val) * pulse + inProgress
  | .capUnmask => 2
  | .decode | .checksum | .failReport | .availQuery | .initMode => 1
  | .idle | .finish => 0

/-- The internal steps a run can still take: DECODE, CHECKSUM and FINISH (R28). -/
def Phase.internalLeft : Phase → Nat
  | .idle | .availQuery | .initMode => 0
  | .finish | .failReport => 1
  | .checksum => 2
  | _ => 3

/-- From `s` to `u` a host request is spent. -/
def RequestSpent (s u : State) : Prop :=
  u.requestsLeft < s.requestsLeft ∧ u.phase.internalLeft ≤ s.phase.internalLeft

/-- From `s` to `u` an internal step is spent. -/
def InternalSpent (s u : State) : Prop :=
  u.requestsLeft ≤ s.requestsLeft ∧ u.phase.internalLeft < s.phase.internalLeft

theorem requestsLeft_le (s : State) : s.requestsLeft ≤ 14 + 82 * (s.maxCycles + 1) := by
  have hidx : (79 - s.idx.val) * (s.maxCycles + 1) ≤ 79 * (s.maxCycles + 1) := Nat.mul_le_mul_right _ (Nat.sub_le _ _)
  unfold State.requestsLeft
  cases s.phase <;> simp only <;> omega

theorem Phase.internalLeft_le (p : Phase) : p.internalLeft ≤ 3 := by cases p <;> decide

/-- Where a failure leads, at most the report and FINISH are left (R28). -/
theorem fail_left (k : OutcomeCode) (s : State) :
    (s.fail k).requestsLeft ≤ 1 ∧ (s.fail k).phase.internalLeft = 1 := by
  obtain ⟨hp, -⟩ | ⟨hp, -⟩ := failPhase_cases s.cfg <;> simp [State.requestsLeft, hp, Phase.internalLeft]

/-- A failed acknowledgment spends all that the capture would have. -/
theorem fail_spends (k : OutcomeCode) {s : State} (hp : s.phase = .ackLow ∨ s.phase = .ackHigh) :
    RequestSpent s (s.fail k) := by
  obtain ⟨hr, hi⟩ := fail_left k s
  have hs : 3 ≤ s.requestsLeft ∧ s.phase.internalLeft = 3 := by
    obtain h | h := hp <;> simp [State.requestsLeft, h, Phase.internalLeft] <;> omega
  exact ⟨by omega, by omega⟩

theorem Phase.polls_iff {p : Phase} : p.polls = true ↔ p = .ackLow ∨ p = .ackHigh ∨ p = .capture := by
  cases p <;> decide

theorem pulseDone_spends (w : Nat) {s : State} (hp : s.phase.polls = true) : RequestSpent s (s.pulseDone w) := by
  obtain ⟨h, -, he⟩ | ⟨h, -, he⟩ | ⟨h, -, he⟩ | ⟨h, -, he⟩ | ⟨hi, h, he⟩ | ⟨-, h, he⟩ | ⟨hl, hh, hc, -⟩ :=
    pulseDone_cases w s
  · exact he ▸ fail_spends _ (.inl h)
  · rw [he]
    simp [RequestSpent, State.requestsLeft, h, Phase.internalLeft]
    omega
  · exact he ▸ fail_spends _ (.inr h)
  · rw [he]
    simp [RequestSpent, State.requestsLeft, h, Phase.internalLeft]
  · have hk : 79 - s.idx.val = 79 - (s.idx.val + 1) + 1 := by omega
    rw [he]
    simp [RequestSpent, State.requestsLeft, h, hk, Nat.succ_mul]
    omega
  · rw [he]
    simp [RequestSpent, State.requestsLeft, h, Phase.internalLeft]
    omega
  · exact absurd (Phase.polls_iff.1 hp) (by simp [hl, hh, hc])

theorem poll_spends (l : Level) {s : State} (hp : s.phase.polls = true) : RequestSpent s (s.poll l) := by
  obtain ⟨-, hc, he⟩ | ⟨-, -, he⟩ | ⟨-, he⟩ := poll_cases l s <;> rw [he]
  · have hlt : s.maxCycles - (s.count + 1) < s.maxCycles - s.count := by omega
    obtain h | h | h := Phase.polls_iff.1 hp <;> simpa [RequestSpent, State.requestsLeft, h] using hlt
  · exact pulseDone_spends 0 hp
  · exact pulseDone_spends s.count hp

theorem afterNowMs_spends (t : Nat) {s : State}
    (hp : s.phase = .runAvail ∨ s.phase = .runStamp ∨ s.phase = .availQuery) : RequestSpent s (s.afterNowMs t) := by
  unfold State.afterNowMs
  obtain h | h | h := hp <;> simp only [h]
  · split <;> simp [RequestSpent, State.requestsLeft, h, Phase.internalLeft]
  · simp [RequestSpent, State.requestsLeft, h, Phase.internalLeft]
  · simp [RequestSpent, State.requestsLeft, h, Phase.internalLeft]

theorem decodeStep_spends {s : State} (hp : s.phase = .decode) : InternalSpent s s.decodeStep := by
  obtain h | h := decodeStep_cases s <;> rw [h]
  · obtain ⟨hr, hi⟩ := fail_left .captureTimeout s
    exact ⟨by simpa [State.requestsLeft, hp] using hr, by rw [hi, hp]; decide⟩
  · simp [InternalSpent, State.requestsLeft, hp, Phase.internalLeft]

theorem checksumStep_spends {s : State} (hp : s.phase = .checksum) : InternalSpent s s.checksumStep := by
  obtain ⟨-, h⟩ | ⟨-, h⟩ := checksumStep_cases s <;> rw [h]
  · simp [InternalSpent, State.requestsLeft, hp, Phase.internalLeft]
  · obtain ⟨hr, hi⟩ := fail_left .checksumFail s
    exact ⟨by simpa [State.requestsLeft, hp] using hr, by rw [hi, hp]; decide⟩

/-- The host requests among events (R78). -/
def requestCount (es : List Event) : Nat := (es.filter fun e => !e.isRunEnd).length

theorem requestCount_append (es fs : List Event) : requestCount (es ++ fs) = requestCount es + requestCount fs := by
  simp [requestCount]

/-- A step outside IDLE spends a host request, or an internal step, which appends none. -/
theorem phaseNext_spends {s : State} (hp : s.phase ≠ .idle) :
    RequestSpent s (phaseNext s) ∨ InternalSpent s (phaseNext s) ∧ requestCount (phaseEvent s).toList = 0 := by
  unfold phaseNext phaseEvent
  cases h : s.phase with
  | idle => exact absurd h hp
  | runAvail | runStamp | availQuery => exact .inl (afterNowMs_spends _ (s := s.takeClock.emit _) (by simp [h]))
  | ackLow | ackHigh | capture => exact .inl (poll_spends _ (s := s.takeLevel.emit _) (by simp [h, Phase.polls]))
  | decode => exact .inr ⟨decodeStep_spends h, rfl⟩
  | checksum => exact .inr ⟨checksumStep_spends h, rfl⟩
  | finish => exact .inr ⟨by simp [InternalSpent, State.finishRun, State.requestsLeft, h, Phase.internalLeft], rfl⟩
  | _ =>
    left
    simp [RequestSpent, State.requestsLeft, h, Phase.internalLeft] <;> omega

/-- The RUN_ENDs among events (R301). -/
def runEndCount (es : List Event) : Nat := (es.filter Event.isRunEnd).length

theorem runEndCount_append (es fs : List Event) : runEndCount (es ++ fs) = runEndCount es + runEndCount fs := by
  simp [runEndCount]

/-- The RUN_END a run can still record: its last step's. -/
def Phase.runEndsLeft (p : Phase) : Nat := if p = .idle then 0 else 1

theorem Phase.runEndsLeft_le (p : Phase) : p.runEndsLeft ≤ 1 := by
  unfold Phase.runEndsLeft
  split <;> decide

/-- Only FINISH records RUN_END, and it leads to IDLE. -/
theorem phaseNext_runEnd {s : State} (hp : s.phase ≠ .idle) :
    runEndCount (phaseEvent s).toList + (phaseNext s).phase.runEndsLeft ≤ s.phase.runEndsLeft := by
  have hs : s.phase.runEndsLeft = 1 := if_neg hp
  by_cases hf : s.phase = .finish
  · have he : phaseEvent s = some (.runEnd s.outcome) := by simp [phaseEvent, hf]
    have hn : (phaseNext s).phase = .idle := by simp [phaseNext, hf, State.finishRun]
    rw [hs, he, hn]
    exact le_rfl
  · have hnone : runEndCount (phaseEvent s).toList = 0 := by
      unfold phaseEvent
      cases h : s.phase with
      | finish => exact absurd h hf
      | _ => rfl
    rw [hnone, hs, Nat.zero_add]
    exact (phaseNext s).phase.runEndsLeft_le

theorem requestCount_toList_le (e : Option Event) : requestCount e.toList ≤ 1 := by
  refine (List.length_filter_le _ _).trans ?_
  cases e <;> simp

/-- The steps a run can still take (R136, R137). -/
def State.stepsLeft (s : State) : Nat := s.requestsLeft + s.phase.internalLeft

theorem stepsLeft_le_runBound (s : State) : s.stepsLeft ≤ runBound s := by
  have hr := requestsLeft_le s
  have hi := s.phase.internalLeft_le
  unfold State.stepsLeft runBound
  omega

theorem phaseNext_stepsLeft {s : State} (hp : s.phase ≠ .idle) : (phaseNext s).stepsLeft < s.stepsLeft := by
  unfold State.stepsLeft
  obtain ⟨hr, hi⟩ | ⟨⟨hr, hi⟩, -⟩ := phaseNext_spends hp <;> omega

theorem phaseNext_requestsLeft {s : State} (hp : s.phase ≠ .idle) :
    requestCount (phaseEvent s).toList + (phaseNext s).requestsLeft ≤ s.requestsLeft := by
  obtain ⟨hr, -⟩ | ⟨⟨hr, -⟩, hn⟩ := phaseNext_spends hp
  · have := requestCount_toList_le (phaseEvent s)
    omega
  · omega

/-- A run of phases is as long as `runBound` allows. -/
theorem PhaseRun.length_le {n : Nat} {s t : State} (h : PhaseRun n s t) : n ≤ runBound s := by
  suffices hn : n + t.stepsLeft ≤ s.stepsLeft by
    have := stepsLeft_le_runBound s
    omega
  induction n generalizing s with
  | zero => obtain rfl := h; omega
  | succ n ih =>
    obtain ⟨hp, h⟩ := h
    have := ih h
    have := phaseNext_stepsLeft hp
    omega

theorem step_total {s : State} (hr : s.refused = false) : ∃ t, step s = .next t := by
  unfold step cycle
  rw [if_neg (by simp [hr])]
  obtain ⟨i, rest, -, hd, hf⟩ | ⟨r, -, -, hf⟩ | hc := fetch_cases s
  · rw [hf]
    exact ⟨_, (exec_command (decodeCommand_isCommand hd) _).trans (live_of_live _ hr)⟩
  · rw [hf]
    exact ⟨_, rfl⟩
  · rw [show fetch s = phaseWork s from hc]
    obtain ⟨i, hi, hw⟩ | ⟨-, hw⟩ := phaseWork_eq s <;> rw [hw]
    · exact ⟨_, exec_phaseRequest (s := s.tick) hr hi⟩
    · exact ⟨_, (apply_ite Host.Outcome.next _ _ _).symm⟩

/-- A step outside IDLE is the step of the phase, or a command ends the run with no event: CONSTRUCT, which leads to
IDLE, or one that is refused (R109). -/
theorem step_outside_idle {s : State} (hr : s.refused = false) (hp : s.phase ≠ .idle) :
    ∃ t, step s = .next t ∧
      (t = phaseNext s.tick ∨ (t.phase = .idle ∨ t.refused = true) ∧ t.trace = s.trace) := by
  obtain ⟨t, ht⟩ := step_total hr
  refine ⟨t, ht, ?_⟩
  obtain ⟨-, ⟨i, rest, -, -, -, ha, rfl⟩ | ⟨rest, rfl⟩ | ⟨hi, -⟩ | ⟨-, rfl⟩⟩ := step_cases ht
  · right
    obtain ⟨pin, cpu, -, -, -, he⟩ | ⟨hi, -, -⟩ | ⟨p, c, hi, -, -, -⟩ := commandEffect_cases ha
    · exact ⟨.inl (by rw [he]), commandEffect_trace i _⟩
    · exact absurd hi hp
    · exact absurd hi hp
  · exact .inr ⟨.inr rfl, rfl⟩
  · exact absurd hi hp
  · exact .inl rfl

/-- What is left to spend bounds the rest of a run. -/
theorem run_completes {s : State} (hr : s.refused = false) :
    ∃ (n : Nat) (t : State) (new : List Event), n ≤ s.stepsLeft ∧ Steps n s t ∧
      (t.phase = .idle ∨ t.refused = true) ∧ t.trace = s.trace ++ new ∧
      requestCount new ≤ s.requestsLeft ∧ runEndCount new ≤ s.phase.runEndsLeft := by
  induction hk : s.stepsLeft using Nat.strong_induction_on generalizing s with
  | _ k ih =>
    subst hk
    by_cases hp : s.phase = .idle
    · exact ⟨0, s, [], Nat.zero_le _, steps_zero.2 rfl, .inl hp, by simp, Nat.zero_le _, Nat.zero_le _⟩
    have hsteps : (phaseNext s.tick).stepsLeft < s.stepsLeft := phaseNext_stepsLeft (s := s.tick) hp
    have hrequests : requestCount (phaseEvent s).toList + (phaseNext s.tick).requestsLeft ≤ s.requestsLeft :=
      phaseNext_requestsLeft (s := s.tick) hp
    have hrunEnds : runEndCount (phaseEvent s).toList + (phaseNext s.tick).phase.runEndsLeft ≤ s.phase.runEndsLeft :=
      phaseNext_runEnd (s := s.tick) hp
    obtain ⟨u, hu, rfl | ⟨hover, htrace⟩⟩ := step_outside_idle hr hp
    · obtain ⟨n, t, new, hn, ht, hover, htrace, hreq, hend⟩ := ih _ hsteps (by simpa using hr) rfl
      refine ⟨n + 1, t, (phaseEvent s).toList ++ new, by omega, steps_succ hu ht, hover, ?_, ?_, ?_⟩
      · rw [htrace, phaseNext_trace, phaseEvent_tick, State.tick_trace, List.append_assoc]
      · rw [requestCount_append]
        omega
      · rw [runEndCount_append]
        omega
    · exact ⟨1, u, [], by omega, steps_one hu, hover, by simp [htrace], Nat.zero_le _, Nat.zero_le _⟩

/-- Settles O49: a run spends what is left, which is within R136's and R137's bounds. -/
theorem runCompletesWithinBound : Obligations.RunCompletesWithinBound := by
  intro s hr _
  obtain ⟨n, t, new, hn, ht, hover, htrace, hreq, hend⟩ := run_completes hr
  exact ⟨n, t, new, hn.trans (stepsLeft_le_runBound s), ht, hover, htrace, hreq.trans (requestsLeft_le s),
    hend.trans s.phase.runEndsLeft_le⟩

end Sys2Proof.Machine

/-! ## The run a read command starts (41_protocol_run.md, R130 to R136; 42_start_sequence.md, R150 to R155)

The command's step at IDLE is followed by the phases of the run: the check, and past it the stamp, the start sequence
and the polls of the acknowledgment. -/

namespace Sys2Proof.Machine

/-! ### The steps of single phases -/

/-- A clock answer that is listed is the one the phase completes with (R234). -/
theorem phaseNext_nowMs {s : State} {t : Nat} {ts : List Nat} (hp : s.phase = .runAvail ∨ s.phase = .runStamp)
    (hc : s.clockAnswers = t :: ts) (ht : t < 2 ^ s.cfg.msBits) :
    phaseNext s = State.afterNowMs t { s with clockAnswers := ts, trace := s.trace ++ [.nowMs t] } := by
  have hs : phaseNext s = (s.takeClock.emit (.nowMs s.nextClock)).afterNowMs s.nextClock := by
    obtain h | h := hp <;> rw [phaseNext, h]
  rw [hs, nextClock_of_listed hc ht, takeClock_of_listed hc]
  rfl

/-- The availability check (R28, R108, R130). -/
theorem phaseNext_runAvail {s : State} {t : Nat} {ts : List Nat} (hp : s.phase = .runAvail)
    (hc : s.clockAnswers = t :: ts) (ht : t < 2 ^ s.cfg.msBits) :
    phaseNext s =
      if avail s.cfg t s.lastTs then
        { s with clockAnswers := ts, trace := s.trace ++ [.nowMs t], phase := .runStamp }
      else { s with clockAnswers := ts, trace := s.trace ++ [.nowMs t], outcome := .cached, phase := .finish } := by
  rw [phaseNext_nowMs (.inl hp) hc ht, State.afterNowMs]
  simp only [hp]
  rfl

/-- The stamp (R28, R132, R133). -/
theorem phaseNext_runStamp {s : State} {t : Nat} {ts : List Nat} (hp : s.phase = .runStamp)
    (hc : s.clockAnswers = t :: ts) (ht : t < 2 ^ s.cfg.msBits) :
    phaseNext s = { s with
      clockAnswers := ts, trace := s.trace ++ [.nowMs t], lastTs := t, valid := false, phase := .stIdleHigh } := by
  rw [phaseNext_nowMs (.inr hp) hc ht, State.afterNowMs]
  simp only [hp]

/-- One poll that reads a listed answer (R28, R210, R233). -/
theorem phaseNext_poll {s : State} {l : Level} {ls : List Level} (hp : s.phase.polls = true)
    (ha : s.readAnswers = l :: ls) :
    phaseNext s = State.poll l { s with readAnswers := ls, trace := s.trace ++ [.read s.pin l] } := by
  have hs : phaseNext s = (s.takeLevel.emit (.read s.pin s.nextLevel)).poll s.nextLevel := by
    obtain h | h | h := Phase.polls_iff.1 hp <;> rw [phaseNext, h]
  have hn : s.nextLevel = l := by simp [State.nextLevel, ha]
  have ht : s.takeLevel = { s with readAnswers := ls } := by simp [State.takeLevel, ha]
  rw [hs, hn, ht]
  rfl

theorem phaseNext_capMask {s : State} (hp : s.phase = .capMask) :
    phaseNext s = { s with
      trace := s.trace ++ [.preemptOff], masked := true, idx := 0, count := 0, phase := .capture } := by
  rw [phaseNext, hp]
  rfl

/-- DECODE of a capture in which no pulse timed out (R174, R176, R177). -/
theorem phaseNext_decode {s : State} (hp : s.phase = .decode) (ht : captureTimedOut s.pw = false) :
    phaseNext s = { s with payload := packPayload (dataBit s.pw), phase := .checksum } := by
  have hs : phaseNext s = s.decodeStep := by rw [phaseNext, hp]
  rw [hs, State.decodeStep, if_neg (by simp [ht])]

theorem phaseNext_capUnmask {s : State} (hp : s.phase = .capUnmask) :
    phaseNext s = { s with trace := s.trace ++ [.preemptOn], masked := false, phase := .decode } := by
  rw [phaseNext, hp]
  rfl

theorem phaseNext_failReport {s : State} (hp : s.phase = .failReport) :
    phaseNext s = { s with trace := s.trace ++ [.debug s.outcome.code], phase := .finish } := by
  rw [phaseNext, hp]
  rfl

/-- FINISH (R28, R130). -/
theorem phaseNext_finish {s : State} (hp : s.phase = .finish) :
    phaseNext s = { s with
      trace := s.trace ++ [.runEnd s.outcome]
      responses := s.responses ++ [.word (readResult s.cmd s.valid s.payload)], phase := .idle } := by
  rw [phaseNext, hp]
  rfl

/-! ### The command, the check and the start sequence -/

theorem commandEffect_read (c : ReadCommand) (s : State) :
    commandEffect c.instr s = { s with cmd := c, phase := .runAvail } := by
  cases c <;> rfl

/-- A read command taken at IDLE, and the phases of its run, no command being issued meanwhile (logs 10, 11). -/
theorem steps_read {n : Nat} {s t : State} {c : ReadCommand} {rest : List Byte} (hr : s.refused = false)
    (hl : s.life = .ready) (hp : s.phase = .idle) (hcalls : s.calls = encode s.cfg.pinBytes c.instr ++ rest)
    (hq : { s with calls := rest }.quietFor n)
    (h : PhaseRun n { s with calls := rest, cmd := c, phase := .runAvail } t) : Steps (n + 1) s (t.tickBy n) := by
  have hd : decodeCommand s.cfg.pinBytes s.calls = .ok (c.instr, rest) := by
    rw [hcalls]
    exact decodeCommand_encode (by cases c <;> rfl) (by cases c <;> rfl) rest
  have ha : commandAccepted c.instr { s with calls := rest } = true := by
    cases c <;> exact admitsQuery_iff.2 ⟨hl, hp⟩
  have hstep := (step_command hr hp hd).trans (exec_accepted (decodeCommand_isCommand hd) hr ha)
  rw [commandEffect_read] at hstep
  exact steps_succ hstep (h.steps hr hq)

/-- Within the minimum interval: the check, then FINISH (R131). -/
theorem phaseRun_cached {s : State} {t : Nat} {ts : List Nat} (hp : s.phase = .runAvail)
    (hc : s.clockAnswers = t :: ts) (ht : t < 2 ^ s.cfg.msBits) (ha : avail s.cfg t s.lastTs = false) :
    PhaseRun 2 s { s with
      clockAnswers := ts, outcome := .cached, phase := .idle, trace := s.trace ++ [.nowMs t, .runEnd .cached]
      responses := s.responses ++ [.word (readResult s.cmd s.valid s.payload)] } := by
  have hcheck := phaseNext_runAvail hp hc ht
  rw [if_neg (by simp [ha])] at hcheck
  have hrun := (PhaseRun.one (by simp [hp]) hcheck).trans (.one nofun (phaseNext_finish rfl))
  simpa using hrun

/-- Settles O17: the command starts the run, whose check leads to FINISH with the outcome as it was cached. -/
theorem readsServeCachedOutcome : Obligations.ReadsServeCachedOutcome := by
  intro s c rest t ts hr hl hp hcalls hq hc ht ha
  have hrun := phaseRun_cached (s := { s with calls := rest, cmd := c, phase := .runAvail }) rfl hc ht ha
  rw [hp]
  exact steps_read hr hl hp hcalls hq hrun

/-- The nine requests of the start sequence (R150). -/
theorem phaseRun_start {s : State} (hp : s.phase = .stIdleHigh) :
    PhaseRun 9 s { s with
      phase := .ackLow, count := 0
      trace := s.trace ++ [
        .write s.pin .high, .delayMs s.cfg.idleHighMs, .setMode s.pin .output, .write s.pin .low,
        .delayMs s.cfg.wakeLowMs, .write s.pin .high, .delayUs s.cfg.endHighUs,
        .setMode s.pin s.cfg.releaseMode, .delayUs s.cfg.settleUs] } := by
  simp [PhaseRun, phaseNext, hp, State.emit, State.goto]

/-- Past the check a run stamps and starts the line, and comes to the first poll (R130, R132, R133, R150). -/
theorem phaseRun_to_ack {s : State} {t1 t2 : Nat} {ts : List Nat} (hp : s.phase = .runAvail)
    (hc : s.clockAnswers = t1 :: t2 :: ts) (ht1 : t1 < 2 ^ s.cfg.msBits) (ht2 : t2 < 2 ^ s.cfg.msBits)
    (ha : avail s.cfg t1 s.lastTs = true) :
    PhaseRun 11 s { s with
      phase := .ackLow, count := 0, clockAnswers := ts, lastTs := t2, valid := false
      trace := s.trace ++ [
        .nowMs t1, .nowMs t2, .write s.pin .high, .delayMs s.cfg.idleHighMs, .setMode s.pin .output,
        .write s.pin .low, .delayMs s.cfg.wakeLowMs, .write s.pin .high, .delayUs s.cfg.endHighUs,
        .setMode s.pin s.cfg.releaseMode, .delayUs s.cfg.settleUs] } := by
  have hcheck := phaseNext_runAvail hp hc ht1
  rw [if_pos ha] at hcheck
  have hstamp := (PhaseRun.one (by simp [hp]) hcheck).trans (.one nofun (phaseNext_runStamp rfl rfl ht2))
  simpa using hstamp.trans (phaseRun_start rfl)

/-- The line is HIGH at the first poll, so the first Pulse measures 0 (R155). -/
theorem phaseNext_ackLow_high {s : State} {ls : List Level} (hp : s.phase = .ackLow) (hc : s.count = 0)
    (ha : s.readAnswers = .high :: ls) :
    phaseNext s = State.fail .startFail { s with readAnswers := ls, trace := s.trace ++ [.read s.pin .high] } := by
  rw [phaseNext_poll (by rw [hp]; rfl) ha]
  simp [State.poll, State.awaited, State.pulseDone, pollResult, hp, hc]

/-- Settles O50: eleven requests lead to the first poll, whose failure leads to FINISH. -/
theorem startFailAtFirstPoll : Obligations.StartFailAtFirstPoll := by
  intro s t1 t2 ts ls hr hp hq hd hc ht1 ht2 hl ha
  have hfail := (phaseRun_to_ack hp hc ht1 ht2 ha).trans (.one nofun (phaseNext_ackLow_high rfl rfl hl))
  have hrun := hfail.trans (.one (by simp [failPhase, hd]) (phaseNext_finish (by simp [failPhase, hd])))
  refine ⟨_, hrun.steps hr hq, ?_⟩
  simp [fail_eq, readResult, sentinel]

end Sys2Proof.Machine

/-! ## Pulses and the capture (45_pulse_measure.md, R210 to R213; 43_capture_decode.md, R170 to R173)

A Pulse counts the polls that read the awaited level and returns its counter at the first that reads the other; the
capture stores 80 such widths in order. -/

namespace Sys2Proof.Machine

theorem poll_awaited {s : State} {l : Level} (hl : s.awaited = l) (hc : s.count < s.maxCycles) :
    s.poll l = { s with count := s.count + 1 } := by
  simp [State.poll, pollResult, hl, Nat.not_le.2 hc]

theorem poll_flip {s : State} {l : Level} (hl : s.awaited = l) : s.poll l.flip = s.pulseDone s.count := by
  simp [State.poll, pollResult, hl]

theorem Phase.ne_idle_of_polls {p : Phase} (h : p.polls = true) : p ≠ .idle := by
  rintro rfl
  cases h

theorem phaseNext_awaited {s : State} {l : Level} {ls : List Level} (hp : s.phase.polls = true) (hl : s.awaited = l)
    (hc : s.count < s.maxCycles) (ha : s.readAnswers = l :: ls) :
    phaseNext s = { s with readAnswers := ls, count := s.count + 1, trace := s.trace ++ [.read s.pin l] } :=
  (phaseNext_poll hp ha).trans (poll_awaited hl hc)

theorem phaseNext_flip {s : State} {l : Level} {ls : List Level} (hp : s.phase.polls = true) (hl : s.awaited = l)
    (ha : s.readAnswers = l.flip :: ls) :
    phaseNext s =
      State.pulseDone s.count { s with readAnswers := ls, trace := s.trace ++ [.read s.pin l.flip] } :=
  (phaseNext_poll hp ha).trans (poll_flip hl)

/-- Polls below the ceiling that read the awaited level are counted (R210). -/
theorem phaseRun_count {k : Nat} {s : State} {l : Level} {rest : List Level} (hp : s.phase.polls = true)
    (hl : s.awaited = l) (hk : s.count + k ≤ s.maxCycles) (ha : s.readAnswers = List.replicate k l ++ rest) :
    PhaseRun k s { s with
      readAnswers := rest, count := s.count + k
      trace := s.trace ++ (List.replicate k l).map (Event.read s.pin) } := by
  induction k generalizing s with
  | zero =>
    obtain ⟨⟩ := s
    simpa [PhaseRun] using ha
  | succ k ih =>
    have hnext := phaseNext_awaited (ls := List.replicate k l ++ rest) hp hl (by omega) ha
    have hbelow : s.count + 1 + k ≤ s.maxCycles := by omega
    have hrest := ih (s := phaseNext s) (by rwa [hnext]) (by rwa [hnext]) (by rwa [hnext]) (by rw [hnext])
    refine ⟨Phase.ne_idle_of_polls hp, ?_⟩
    rw [hnext] at hrest ⊢
    simpa [List.replicate_succ, Nat.add_assoc, Nat.add_comm 1] using hrest

@[simp] theorem length_seg (l : Level) (w : Nat) : (seg l w).length = w + 1 := by simp [seg]

/-- A Pulse returns the number of polls that read the awaited level, where that is within the ceiling (R211, R213). -/
theorem phaseRun_pulse {k : Nat} {s t : State} {l : Level} {rest : List Level} (hp : s.phase.polls = true)
    (hl : s.awaited = l) (hc : s.count = 0) (hk : k ≤ s.maxCycles) (ha : s.readAnswers = seg l k ++ rest)
    (ht : State.pulseDone k { s with
      readAnswers := rest, count := k, trace := s.trace ++ (seg l k).map (Event.read s.pin) } = t) :
    PhaseRun (k + 1) s t := by
  have hcount := phaseRun_count (k := k) (rest := l.flip :: rest) hp hl (by omega) (by simpa [seg] using ha)
  have hend := hcount.trans (.one (Phase.ne_idle_of_polls hp) (phaseNext_flip hp hl rfl))
  subst ht
  simpa [seg, hc] using hend

theorem pulseDone_ackLow {w : Nat} {s : State} (hp : s.phase = .ackLow) (hw : w ≠ 0) :
    s.pulseDone w = { s with phase := .ackHigh, count := 0 } := by
  simp [State.pulseDone, hp, hw]

theorem pulseDone_ackHigh {w : Nat} {s : State} (hp : s.phase = .ackHigh) (hw : w ≠ 0) :
    s.pulseDone w = { s with phase := .capMask } := by
  simp [State.pulseDone, hp, hw]

/-- An acknowledgment of nonzero widths leads to the capture, with a clear counter at pulse 0 (R155, R156, R170). -/
theorem phaseRun_ack {a b : Nat} {s : State} {rest : List Level} (hp : s.phase = .ackLow) (hc : s.count = 0)
    (ha : a ≠ 0) (ham : a ≤ s.maxCycles) (hb : b ≠ 0) (hbm : b ≤ s.maxCycles)
    (hans : s.readAnswers = seg .low a ++ seg .high b ++ rest) :
    PhaseRun (a + 1 + (b + 1) + 1) s { s with
      phase := .capture, masked := true, idx := 0, count := 0, readAnswers := rest
      trace := s.trace ++ (seg .low a ++ seg .high b).map (Event.read s.pin) ++ [.preemptOff] } := by
  have hlow := phaseRun_pulse (l := .low) (by rw [hp]; rfl) (by simp [State.awaited, hp]) hc ham
    (hans.trans (List.append_assoc _ _ _)) (pulseDone_ackLow hp ha)
  have hhigh := hlow.trans (phaseRun_pulse (l := .high) rfl rfl rfl hbm rfl (pulseDone_ackHigh rfl hb))
  have hmask := hhigh.trans (.one nofun (phaseNext_capMask rfl))
  simpa using hmask

/-- The level a capture pulse awaits alternates with the index (R173). -/
theorem awaited_capture {s : State} (hp : s.phase = .capture) :
    s.awaited = if s.idx.val % 2 = 0 then .low else .high := by
  simp [State.awaited, levelOf, hp]

theorem pulseDone_capture {w : Nat} {s : State} (hp : s.phase = .capture) (hi : s.idx.val + 1 < 80) :
    s.pulseDone w = { s with pw := s.pw.set s.idx.val w s.idx.isLt, idx := ⟨s.idx.val + 1, hi⟩, count := 0 } := by
  simp [State.pulseDone, State.nextPulse, hp, hi]

theorem pulseDone_capture_last {w : Nat} {s : State} (hp : s.phase = .capture) (hi : ¬ s.idx.val + 1 < 80) :
    s.pulseDone w = { s with
      pw := s.pw.set s.idx.val w s.idx.isLt, idx := Config.freeIdx s.draws, draws := s.draws + 1
      count := 0, phase := .capUnmask } := by
  simp [State.pulseDone, State.nextPulse, hp, hi]

theorem widths_take_set (pw : Widths) (j : Fin 80) (w : Nat) :
    (pw.set j.val w j.isLt).toList.take (j.val + 1) = pw.toList.take j.val ++ [w] := by
  rw [Vector.toList_set, List.take_succ_eq_append_getElem (by simp), List.getElem_set_self,
    List.take_set_of_le le_rfl]

/-- The capture stores the widths of its pulses from `S.idx` on, each in its place, and ends with the 80th (R170,
R171). -/
theorem phaseRun_capture {ws : List Nat} {s : State} {rest : List Level} (hp : s.phase = .capture) (hc : s.count = 0)
    (hlen : s.idx.val + ws.length = 80) (hw : ∀ w ∈ ws, w ≤ s.maxCycles)
    (ha : s.readAnswers = captureScript s.idx.val ws ++ rest) :
    ∃ (pw : Widths) (idx : Fin 80) (draws : Nat), pw.toList = s.pw.toList.take s.idx.val ++ ws ∧
      PhaseRun (captureScript s.idx.val ws).length s { s with
        phase := .capUnmask, count := 0, readAnswers := rest
        trace := s.trace ++ (captureScript s.idx.val ws).map (Event.read s.pin)
        pw := pw, idx := idx, draws := draws } := by
  induction ws generalizing s with
  | nil => exact absurd hlen s.idx.isLt.ne
  | cons w ws ih =>
    obtain ⟨hw, hws⟩ := List.forall_mem_cons.1 hw
    rw [List.length_cons] at hlen
    have hpulse {t : State} := phaseRun_pulse (t := t) (by rw [hp]; rfl) (awaited_capture hp) hc hw
      (ha.trans (List.append_assoc _ _ _))
    by_cases hi : s.idx.val + 1 < 80
    · have hfirst := hpulse (pulseDone_capture (by exact hp) (by exact hi))
      obtain ⟨pw, idx, draws, hpw, hrun⟩ := ih (s := { s with
        pw := s.pw.set s.idx.val w s.idx.isLt, idx := ⟨s.idx.val + 1, hi⟩, count := 0
        readAnswers := captureScript (s.idx.val + 1) ws ++ rest
        trace := s.trace ++ (seg (if s.idx.val % 2 = 0 then .low else .high) w).map (Event.read s.pin) })
        hp rfl (by simp only; omega) hws rfl
      refine ⟨pw, idx, draws, ?_, ?_⟩
      · simpa [widths_take_set] using hpw
      · simpa [captureScript] using hfirst.trans hrun
    · have hlast := hpulse (pulseDone_capture_last hp hi)
      obtain rfl : ws = [] := List.eq_nil_of_length_eq_zero (by omega)
      refine ⟨s.pw.set s.idx.val w s.idx.isLt, _, _, ?_, by simpa [captureScript] using hlast⟩
      have h80 : s.idx.val + 1 = 80 := by omega
      rw [← widths_take_set, h80]
      simp

end Sys2Proof.Machine

/-! ## The frame of a payload (43_capture_decode.md, R173 to R177; 95_test_vectors.md)

The pairs of a frame's widths hold the payload's bits, most significant first, so a capture of them decodes to the
payload. -/

namespace Sys2Proof.Machine

theorem frameWidths_length (p : Payload) (lo h0 h1 : Nat) : (frameWidths p lo h0 h1).length = 80 := by
  simp [frameWidths]

theorem frameWidths_le {p : Payload} {lo h0 h1 m : Nat} (hlo : lo ≤ m) (h0m : h0 ≤ m) (h1m : h1 ≤ m) :
    ∀ w ∈ frameWidths p lo h0 h1, w ≤ m := by
  intro w hw
  obtain ⟨b, -, hb⟩ := List.mem_flatMap.1 hw
  obtain rfl | rfl : w = lo ∨ w = if payloadBit p b then h1 else h0 := by simpa using hb
  · exact hlo
  · split <;> assumption

/-- The entries of a list of pairs laid out one after the other. -/
theorem getElem?_flatMap_pair {α β : Type} (f g : α → β) (l : List α) (i : Nat) :
    (l.flatMap fun a => [f a, g a])[2 * i]? = l[i]?.map f ∧
    (l.flatMap fun a => [f a, g a])[2 * i + 1]? = l[i]?.map g := by
  induction l generalizing i with
  | nil => simp
  | cons a l ih =>
    cases i with
    | zero => simp
    | succ i => simpa [Nat.mul_succ] using ih i

theorem packByte_bits : ∀ b : Byte, packByte (fun i => b.getLsbD (7 - i.val)) = b := by decide

theorem packedByte_payloadBit (p : Payload) (k : Fin 5) : packedByte (payloadBit p) k = p[k] := by
  have hbit : ∀ i : Fin 8, payloadBit p ⟨8 * k.val + i.val, by omega⟩ = p[k].getLsbD (7 - i.val) := by
    intro i
    have hd : (8 * k.val + i.val) / 8 = k.val := by omega
    have hm : (8 * k.val + i.val) % 8 = i.val := by omega
    simp [payloadBit, hd, hm]
  simp only [packedByte, hbit, packByte_bits]

theorem packPayload_payloadBit (p : Payload) : packPayload (payloadBit p) = p := by
  refine Vector.ext fun k hk => ?_
  have h := packedByte_payloadBit p ⟨k, hk⟩
  interval_cases k <;> exact h

section
variable {pw : Widths} {p : Payload} {lo h0 h1 : Nat} (hpw : pw.toList = frameWidths p lo h0 h1)
include hpw

theorem lowWidth_of_frame (b : Fin 40) : lowWidth pw b = lo := by
  have h := (getElem?_flatMap_pair (fun _ => lo) (fun b => if payloadBit p b then h1 else h0) (List.finRange 40) b).1
  rw [← frameWidths, ← hpw] at h
  simpa [lowWidth, show 2 * b.val < 80 by omega] using h

theorem highWidth_of_frame (b : Fin 40) : highWidth pw b = if payloadBit p b then h1 else h0 := by
  have h := (getElem?_flatMap_pair (fun _ => lo) (fun b => if payloadBit p b then h1 else h0) (List.finRange 40) b).2
  rw [← frameWidths, ← hpw] at h
  simpa [highWidth, show 2 * b.val + 1 < 80 by omega] using h

/-- The widths of a frame that tell 0 from 1 decode to its payload, and none is the timeout sentinel (R174 to R176). -/
theorem frame_decodes (h0pos : 0 < h0) (h0lo : h0 ≤ lo) (hloh1 : lo < h1) :
    captureTimedOut pw = false ∧ packPayload (dataBit pw) = p := by
  constructor
  · rw [← Bool.not_eq_true, captureTimedOut_iff]
    rintro ⟨b, hb⟩
    rw [lowWidth_of_frame hpw, highWidth_of_frame hpw] at hb
    split at hb <;> omega
  · have hbits : dataBit pw = payloadBit p := by
      funext b
      rw [dataBit, lowWidth_of_frame hpw, highWidth_of_frame hpw]
      cases payloadBit p b <;> simp [h0lo, hloh1]
    rw [hbits, packPayload_payloadBit]

end

end Sys2Proof.Machine

/-! ## Reading a frame (41_protocol_run.md, R130; 44_checksum_cache.md, R190 to R192; 95_test_vectors.md, V-S1) -/

namespace Sys2Proof.Machine

/-- The pulses of a frame are within the ceiling `m`, and its high widths tell 0 from 1. -/
structure FrameFits (m a b lo h0 h1 : Nat) : Prop where
  ack_low : 0 < a ∧ a ≤ m
  ack_high : 0 < b ∧ b ≤ m
  zero : 0 < h0 ∧ h0 ≤ lo
  one : lo < h1 ∧ h1 ≤ m

/-- The poll script of a frame is read from the acknowledgment to CHECKSUM, which finds the payload (R155, R170 to
R177). -/
theorem phaseRun_frame {s : State} {p : Payload} {a b lo h0 h1 : Nat} {rest : List Level} (hp : s.phase = .ackLow)
    (hc : s.count = 0) (hfits : FrameFits s.maxCycles a b lo h0 h1)
    (hans : s.readAnswers = frameScript p a b lo h0 h1 ++ rest) :
    ∃ (n : Nat) (pw : Widths) (idx : Fin 80) (draws : Nat) (trace : List Event), PhaseRun n s { s with
      phase := .checksum, masked := false, count := 0, readAnswers := rest, payload := p
      pw := pw, idx := idx, draws := draws, trace := trace } := by
  obtain ⟨⟨ha, ham⟩, ⟨hb, hbm⟩, ⟨h0pos, h0lo⟩, hloh1, h1m⟩ := hfits
  have hack := phaseRun_ack hp hc ha.ne' ham hb.ne' hbm (hans.trans (List.append_assoc _ _ _))
  obtain ⟨pw, idx, draws, hpw, hcapture⟩ := phaseRun_capture (s := { s with
      phase := .capture, masked := true, idx := 0, count := 0
      readAnswers := captureScript 0 (frameWidths p lo h0 h1) ++ rest
      trace := s.trace ++ (seg .low a ++ seg .high b).map (Event.read s.pin) ++ [.preemptOff] })
    rfl rfl (by simp [frameWidths_length]) (frameWidths_le (by simp only; omega) (by simp only; omega) h1m) rfl
  obtain ⟨hto, hpay⟩ := frame_decodes (pw := pw) (by simpa using hpw) h0pos h0lo hloh1
  have hunmask := (hack.trans hcapture).trans (.one nofun (phaseNext_capUnmask rfl))
  have hdecode := hunmask.trans (.one nofun (phaseNext_decode rfl hto))
  exact ⟨_, pw, idx, draws, _, hpay ▸ hdecode⟩

/-- The checksum's verdict, the report of a failure where DEBUG is enabled, and FINISH (R103, R104, R190 to R192,
R239). -/
theorem phaseRun_verdict {s : State} (hp : s.phase = .checksum) (hv : s.valid = false) :
    ∃ (n : Nat) (trace : List Event), PhaseRun n s { s with
      phase := .idle, valid := checksumOk s.payload
      outcome := if checksumOk s.payload then .ok else .checksumFail
      responses := s.responses ++ [.word (readResult s.cmd (checksumOk s.payload) s.payload)], trace := trace } := by
  have hne : s.phase ≠ .idle := by simp [hp]
  have hnext : phaseNext s = s.checksumStep := by rw [phaseNext, hp]
  obtain ⟨hk, he⟩ | ⟨hk, he⟩ := checksumStep_cases s <;> rw [hk]
  · exact ⟨_, _, (PhaseRun.one hne (hnext.trans he)).trans (.one nofun (phaseNext_finish rfl))⟩
  · have hfail := PhaseRun.one hne (hnext.trans (he.trans (fail_eq _ s)))
    obtain ⟨hf, -⟩ | ⟨hf, -⟩ := failPhase_cases s.cfg <;> rw [hf] at hfail
    · have hreport := hfail.trans (.one nofun (phaseNext_failReport rfl))
      exact ⟨_, _, by simpa [hv, drawsPayload] using hreport.trans (.one nofun (phaseNext_finish rfl))⟩
    · exact ⟨_, _, by simpa [hv, drawsPayload] using hfail.trans (.one nofun (phaseNext_finish rfl))⟩

/-- A run past the check that reads a frame: its payload, its verdict and the response (R130, R132, R190 to R192). -/
theorem phaseRun_read_frame {s : State} {p : Payload} {a b lo h0 h1 t1 t2 : Nat} {ts : List Nat} {rest : List Level}
    (hp : s.phase = .runAvail) (hc : s.clockAnswers = t1 :: t2 :: ts) (ht1 : t1 < 2 ^ s.cfg.msBits)
    (ht2 : t2 < 2 ^ s.cfg.msBits) (hav : avail s.cfg t1 s.lastTs = true)
    (hfits : FrameFits s.maxCycles a b lo h0 h1)
    (hans : s.readAnswers = frameScript p a b lo h0 h1 ++ rest) :
    ∃ (n : Nat) (pw : Widths) (idx : Fin 80) (draws : Nat) (trace : List Event), PhaseRun n s { s with
      phase := .idle, masked := false, count := 0, clockAnswers := ts, readAnswers := rest, lastTs := t2, payload := p
      valid := checksumOk p, outcome := if checksumOk p then .ok else .checksumFail
      responses := s.responses ++ [.word (readResult s.cmd (checksumOk p) p)]
      pw := pw, idx := idx, draws := draws, trace := trace } := by
  obtain ⟨tr, hstart⟩ : ∃ tr, PhaseRun 11 s { s with
      phase := .ackLow, count := 0, clockAnswers := ts, lastTs := t2, valid := false, trace := tr } :=
    ⟨_, phaseRun_to_ack hp hc ht1 ht2 hav⟩
  obtain ⟨n, pw, idx, draws, tr, hframe⟩ := phaseRun_frame (s := { s with
      phase := .ackLow, count := 0, clockAnswers := ts, lastTs := t2, valid := false, trace := tr })
    rfl rfl hfits hans
  obtain ⟨k, tr, hverdict⟩ := phaseRun_verdict (s := { s with
      phase := .checksum, masked := false, count := 0, clockAnswers := ts, readAnswers := rest, lastTs := t2
      payload := p, valid := false, pw := pw, idx := idx, draws := draws, trace := tr }) rfl rfl
  exact ⟨_, pw, idx, draws, tr, (hstart.trans hframe).trans hverdict⟩

/-- Settles O51: the command starts a run that reads the frame, and `runBound` covers its length. -/
theorem readReturnsFrameContents : Obligations.ReadReturnsFrameContents := by
  intro s c p a b lo h0 h1 more t1 t2 ts rest hr hl hp hcalls hq hc ht1 ht2 hav ha ham hb hbm h0pos h0lo hloh1 h1m hans
  have hfits : FrameFits s.maxCycles a b lo h0 h1 := ⟨⟨ha, ham⟩, ⟨hb, hbm⟩, ⟨h0pos, h0lo⟩, hloh1, h1m⟩
  obtain ⟨n, pw, idx, draws, tr, hrun⟩ :=
    phaseRun_read_frame (s := { s with calls := more, cmd := c, phase := .runAvail }) rfl hc ht1 ht2 hav hfits hans
  have hsteps := steps_read hr hl hp hcalls (hq.mono hrun.length_le) hrun
  exact ⟨n + 1, _, hsteps, rfl, rfl, rfl, rfl, rfl, rfl, rfl, rfl, rfl⟩

end Sys2Proof.Machine

/-! ## The start sequence and the acknowledgment's widths (42_start_sequence.md, R150, R155, R156) -/

namespace Sys2Proof.Machine

theorem phaseRequest_of_polls {s : State} (hp : s.phase.polls = true) : phaseRequest s = some (.read s.pin) := by
  obtain h | h | h := Phase.polls_iff.1 hp <;> simp [phaseRequest, h]

/-- The READ of a polling phase that sees the level turn ends the Pulse with the count reached (R210, R211). -/
theorem exec_read_flip {s t : State} {l : Level} {ls : List Level} (hr : s.refused = false)
    (hp : s.phase.polls = true) (hl : s.awaited = l) (ha : s.readAnswers = l.flip :: ls)
    (ht : State.pulseDone s.count { s with
      readAnswers := ls, trace := s.trace ++ [.read s.pin l.flip] } = t) :
    exec (.read s.pin) s = .next t := by
  rw [exec_phaseRequest hr (phaseRequest_of_polls hp), phaseNext_flip hp hl ha, ht]

/-- Settles O33: the nine phases of the start sequence, with the countdown of the caller beside them. -/
theorem startSequenceIsNineRequests : Obligations.StartSequenceIsNineRequests :=
  fun _ hr hp hq => (phaseRun_start hp).steps hr hq

/-- Settles O30: the level has turned, so the Pulse returns `S.count`, which passes the test against 0. -/
theorem ackWidthGoesOn : Obligations.AckWidthGoesOn := by
  intro s ls hr hc
  refine ⟨fun hp ha => ?ackLow, fun hp ha => ?ackHigh⟩
  case ackLow =>
    have hl : s.awaited = .low := by simp [State.awaited, hp]
    exact exec_read_flip hr (by rw [hp]; rfl) hl ha (pulseDone_ackLow hp hc)
  case ackHigh =>
    have hl : s.awaited = .high := by simp [State.awaited, hp]
    exact exec_read_flip hr (by rw [hp]; rfl) hl ha (pulseDone_ackHigh hp hc)

end Sys2Proof.Machine

/-! ## The preemption bracket (43_capture_decode.md, R172; 10_state.md, R32)

PREEMPT_OFF is the event of CAP_MASK, which leads into the capture, and PREEMPT_ON that of CAP_UNMASK, which leads out
of it; in between the phase stays CAPTURE, whose event is a poll. -/

namespace Sys2Proof.Machine

/-- The phases in which preemption is masked (R32). -/
@[simp] abbrev Phase.masks (p : Phase) : Prop := p = .capture ∨ p = .capUnmask

/-- Only the two requests of the bracket write `S.masked` (R20, R32). -/
theorem phaseNext_masked (s : State) :
    (phaseNext s).masked =
      if s.phase = .capMask then true else if s.phase = .capUnmask then false else s.masked := by
  unfold phaseNext
  cases s.phase with
  | runAvail | runStamp | availQuery => rw [afterNowMs_eq]; rfl
  | ackLow | ackHigh | capture => rw [poll_eq]; rfl
  | decode => obtain h | h := decodeStep_cases s <;> simp [h]
  | checksum => obtain ⟨-, h⟩ | ⟨-, h⟩ := checksumStep_cases s <;> simp [h]
  | _ => rfl

theorem fail_not_masks (k : OutcomeCode) (s : State) : ¬ (s.fail k).phase.masks := by
  obtain ⟨h, -⟩ | ⟨h, -⟩ := failPhase_cases s.cfg <;> simp [h]

theorem pulseDone_masks_iff (w : Nat) (s : State) : (s.pulseDone w).phase.masks ↔ s.phase.masks := by
  obtain ⟨hp, -, h⟩ | ⟨hp, -, h⟩ | ⟨hp, -, h⟩ | ⟨hp, -, h⟩ | ⟨_, hp, h⟩ | ⟨-, hp, h⟩ | ⟨-, -, -, h⟩ :=
    pulseDone_cases w s
  · exact h ▸ iff_of_false (fail_not_masks _ s) (by simp [hp])
  · simp [h, hp]
  · exact h ▸ iff_of_false (fail_not_masks _ s) (by simp [hp])
  · simp [h, hp]
  · simp [h, hp]
  · simp [h, hp]
  · rw [h]

/-- A poll neither enters nor leaves the bracket. -/
theorem poll_masks_iff (l : Level) (s : State) : (s.poll l).phase.masks ↔ s.phase.masks := by
  obtain ⟨-, -, h⟩ | ⟨-, -, h⟩ | ⟨-, h⟩ := poll_cases l s <;> rw [h]
  · exact pulseDone_masks_iff 0 s
  · exact pulseDone_masks_iff s.count s

theorem afterNowMs_masks_iff (t : Nat) (s : State) : (s.afterNowMs t).phase.masks ↔ s.phase.masks := by
  unfold State.afterNowMs
  cases hp : s.phase with
  | runAvail => simp only; split <;> simp
  | runStamp | availQuery => simp
  | _ => simp [hp]

/-- CAP_MASK leads into the bracket, CAPTURE stays in it, and CAP_UNMASK leads out (R28, R170). -/
theorem phaseNext_masks_iff (s : State) :
    (phaseNext s).phase.masks ↔ s.phase = .capMask ∨ s.phase = .capture := by
  unfold phaseNext
  cases hp : s.phase with
  | runAvail | runStamp | availQuery => rw [afterNowMs_masks_iff]; simp [hp]
  | ackLow | ackHigh | capture => rw [poll_masks_iff]; simp [hp]
  | decode =>
    obtain h | h := decodeStep_cases s <;> rw [h]
    · simpa using fail_not_masks .captureTimeout s
    · simp
  | checksum =>
    obtain ⟨-, h⟩ | ⟨-, h⟩ := checksumStep_cases s <;> rw [h]
    · simp
    · simpa using fail_not_masks .checksumFail s
  | _ => simp [hp, State.finishRun]

/-- The step of a phase keeps `S.masked` true exactly in the masked phases (R32). -/
theorem phaseNext_masked_iff {s : State} (h : s.masked = true ↔ s.phase.masks) :
    (phaseNext s).masked = true ↔ (phaseNext s).phase.masks := by
  rw [phaseNext_masks_iff, phaseNext_masked]
  split
  next hoff => simp [hoff]
  split
  next hon => simp [hon]
  next hoff hon => simp [h, hoff, hon]

/-- Where `S.masked` tells whether the bracket is open, the event of the phase is one R172 allows there, and
`S.masked` then tells whether it is open after the event. -/
theorem bracketScan_phaseEvent {s : State} (h : s.masked = true ↔ s.phase.masks) :
    (phaseEvent s).toList.foldl bracketScan (some s.masked) = some (phaseNext s).masked := by
  rw [phaseNext_masked]
  unfold phaseEvent
  cases hp : s.phase with
  | capture | capUnmask =>
    have hm : s.masked = true := by simp [h, hp]
    simp [hm, bracketScan]
  | _ =>
    have hm : s.masked = false := by simpa [hp] using h
    simp [hm, bracketScan]

theorem phaseNext_keeps_bracket (s : State) (h : s.BracketInv) : (phaseNext s).BracketInv := by
  obtain ⟨hscan, hmask, hlife⟩ := h
  refine ⟨?_, phaseNext_masked_iff hmask, fun hl => ?_⟩
  · have hfold : bracketOf (phaseNext s).trace = (phaseEvent s).toList.foldl bracketScan (bracketOf s.trace) := by
      rw [phaseNext_trace]; exact List.foldl_append
    rw [hfold, hscan, bracketScan_phaseEvent hmask]
  · have hp : s.phase = .idle := by
      rw [phaseNext_life] at hl
      split at hl
      · cases hl
      · exact hlife hl
    simp [phaseNext, hp]

/-- Every command is accepted at IDLE alone, CONSTRUCT where an UNBUILT engine is there (R109). -/
theorem commandAccepted_idle {i : Instr} {s : State} (ha : commandAccepted i s = true)
    (hlife : s.life = .unbuilt → s.phase = .idle) : s.phase = .idle := by
  obtain ⟨-, -, -, hl, -⟩ | ⟨hp, -⟩ | ⟨-, -, hp, -⟩ := commandEffect_cases ha
  exacts [hlife hl, hp, hp]

theorem commandEffect_keeps_bracket (i : Instr) (s : State) (ha : commandAccepted i s = true) (h : s.BracketInv) :
    (commandEffect i s).BracketInv := by
  obtain ⟨hscan, hmask, hlife⟩ := h
  have hidle := commandAccepted_idle ha hlife
  have hm : s.masked = false := by simpa [hidle] using hmask
  rw [hm] at hscan
  obtain ⟨pin, cpu, -, -, -, he⟩ | ⟨-, hl, he⟩ | ⟨p, c, -, hl, rfl | rfl, he⟩ := commandEffect_cases ha <;> rw [he]
  · simpa [State.BracketInv] using hscan
  · obtain hl | hl := hl <;> simp [State.BracketInv, hm, hl, hscan]
  · simp [State.BracketInv, hm, hl, hscan]
  · simp [State.BracketInv, hm, hl, hscan]

/-- Settles O55: accepted commands append no event and find `S.masked` false; each phase keeps the bracket. -/
theorem stepKeepsPreemptionBracket : Obligations.StepKeepsPreemptionBracket := fun _ _ h hs =>
  step_preserves (fun _ _ h => h) (fun _ h => h) (fun _ h => h) (fun i s _ => commandEffect_keeps_bracket i s)
    phaseNext_keeps_bracket h hs

end Sys2Proof.Machine

/-! ## The bit decoder (43_capture_decode.md, R174 to R178) -/

namespace Sys2Proof.Machine

theorem packByte_getLsbD (bit : Fin 8 → Bool) (i : Fin 8) : (packByte bit).getLsbD (7 - i.val) = bit i := by
  simp only [packByte, BitVec.getLsbD_setWidth, BitVec.getLsbD_append]
  fin_cases i <;> simp

theorem packPayload_getElem (bit : Fin 40 → Bool) (k : Fin 5) : (packPayload bit)[k] = packedByte bit k := by
  fin_cases k <;> rfl

/-- Packing and reading bits in capture order undo each other (R176); the converse is `packPayload_payloadBit`. -/
theorem payloadBit_packPayload (bit : Fin 40 → Bool) (b : Fin 40) : payloadBit (packPayload bit) b = bit b := by
  have hbyte : (packPayload bit)[b.val / 8] = packedByte bit ⟨b.val / 8, by omega⟩ :=
    packPayload_getElem bit ⟨b.val / 8, by omega⟩
  have hpos : 8 * (b.val / 8) + b.val % 8 = b.val := Nat.div_add_mod _ _
  rw [payloadBit, hbyte, packedByte]
  simpa [hpos] using packByte_getLsbD (fun i => bit ⟨8 * (b.val / 8) + i.val, by omega⟩) ⟨b.val % 8, by omega⟩

/-- Settles O39: the bit of R176's position is `payloadBit`. -/
theorem packingPlacesBits : Obligations.PackingPlacesBits := payloadBit_packPayload

theorem captureTimedOut_eq_false {pw : Widths} (h : ∀ j : Fin 80, pw[j] ≠ 0) : captureTimedOut pw = false := by
  rw [← Bool.not_eq_true, captureTimedOut_iff]
  rintro ⟨b, hlow | hhigh⟩
  · exact h ⟨2 * b.val, by omega⟩ hlow
  · exact h ⟨2 * b.val + 1, by omega⟩ hhigh

/-- Settles O34: the step of DECODE packs the data bits, and each is read back from its place. -/
theorem decodePacksLongerHighs : Obligations.DecodePacksLongerHighs := by
  intro s hr hp hq hpw
  have hstep := step_quiet hr (by simp [hp]) hq
  rw [phaseNext_decode (s := s.tickBy 1) hp (captureTimedOut_eq_false hpw)] at hstep
  exact ⟨_, hstep, rfl, payloadBit_packPayload (dataBit s.pw)⟩

theorem dataBit_congr {v w : Widths} {b : Fin 40}
    (h : lowWidth v b < highWidth v b ↔ lowWidth w b < highWidth w b) : dataBit w b = dataBit v b :=
  decide_eq_decide.2 h.symm

section
variable {v w : Widths} {f : Fin 40 → Nat}
  (h : ∀ b : Fin 40, 0 < f b ∧ lowWidth w b = f b * lowWidth v b ∧ highWidth w b = f b * highWidth v b)
include h

theorem dataBit_scaled : dataBit w = dataBit v := by
  funext b
  obtain ⟨hf, hlow, hhigh⟩ := h b
  apply dataBit_congr
  rw [hlow, hhigh, Nat.mul_lt_mul_left hf]

theorem captureTimedOut_scaled : captureTimedOut w = captureTimedOut v := by
  rw [Bool.eq_iff_iff, captureTimedOut_iff, captureTimedOut_iff]
  refine exists_congr fun b => ?_
  obtain ⟨hf, hlow, hhigh⟩ := h b
  simp [hlow, hhigh, hf.ne']

end

/-- Settles O40: a positive factor keeps which width is the greater, and which width is 0. -/
theorem scalingKeepsPayload : Obligations.ScalingKeepsPayload :=
  ⟨fun _ _ _ h => dataBit_congr h, fun _ _ _ h => ⟨congrArg packPayload (dataBit_scaled h), captureTimedOut_scaled h⟩⟩

end Sys2Proof.Machine

/-! ## The capture (43_capture_decode.md, R170 to R173; 45_pulse_measure.md, R211, R212) -/

namespace Sys2Proof.Machine

/-- The poll that ends a Pulse returns the counter, or at the ceiling the timeout sentinel (R210). -/
theorem poll_ends {s : State} {l : Level} (h : l ≠ s.awaited ∨ s.maxCycles ≤ s.count) :
    s.poll l = s.pulseDone (if l = s.awaited then 0 else s.count) := by
  obtain ⟨hl, hc, -⟩ | ⟨hl, -, he⟩ | ⟨hl, he⟩ := poll_cases l s
  · exact absurd h (by simp [hl, hc])
  · rw [he, if_pos hl]
  · rw [he, if_neg hl]

theorem phaseNext_poll_ends {s : State} {l : Level} {ls : List Level} (hp : s.phase.polls = true)
    (ha : s.readAnswers = l :: ls) (h : l ≠ s.awaited ∨ s.maxCycles ≤ s.count) :
    phaseNext s = State.pulseDone (if l = s.awaited then 0 else s.count)
      { s with readAnswers := ls, trace := s.trace ++ [.read s.pin l] } :=
  (phaseNext_poll hp ha).trans (poll_ends h)

/-- A Pulse of the capture that returns `w`: its store, then the next pulse, or CAP_UNMASK after the 80th (R170; log 7). -/
theorem pulseDone_capture_eq {s : State} (w : Nat) (hp : s.phase = .capture) :
    s.pulseDone w = { s with
      pw := s.pw.set s.idx.val w s.idx.isLt, count := 0
      phase := if s.idx.val = 79 then .capUnmask else .capture
      idx := (s.pulseDone w).idx, draws := (s.pulseDone w).draws } ∧
    (s.idx.val < 79 → (s.pulseDone w).idx.val = s.idx.val + 1 ∧ (s.pulseDone w).draws = s.draws) := by
  by_cases hi : s.idx.val + 1 < 80
  · rw [pulseDone_capture hp hi, if_neg (by omega), ← hp]
    exact ⟨rfl, fun _ => ⟨rfl, rfl⟩⟩
  · rw [pulseDone_capture_last hp hi, if_pos (by omega)]
    exact ⟨rfl, fun h => absurd h (by omega)⟩

/-- Settles O32: the poll ends the Pulse, and the capture stores what it returned. -/
theorem captureStoresWidth : Obligations.CaptureStoresWidth := by
  intro s l ls hr hp ha hend
  have hpolls : s.phase.polls = true := by rw [hp]; rfl
  have hexec := exec_phaseRequest hr (phaseRequest_of_polls hpolls)
  rw [phaseNext_poll_ends hpolls ha hend] at hexec
  exact ⟨_, hexec, pulseDone_capture_eq _ hp⟩

theorem phaseNext_timeout {s : State} {l : Level} {ls : List Level} (hp : s.phase.polls = true) (hl : s.awaited = l)
    (hc : s.maxCycles ≤ s.count) (ha : s.readAnswers = l :: ls) :
    phaseNext s = State.pulseDone 0 { s with readAnswers := ls, trace := s.trace ++ [.read s.pin l] } := by
  rw [phaseNext_poll_ends hp ha (.inr hc), if_pos hl.symm]

/-- A Pulse that reads the awaited level past the ceiling returns the sentinel 0 (R212). -/
theorem phaseRun_timeout {s t : State} {l : Level} {rest : List Level} (hp : s.phase.polls = true)
    (hl : s.awaited = l) (hc : s.count = 0) (ha : s.readAnswers = List.replicate (s.maxCycles + 1) l ++ rest)
    (ht : State.pulseDone 0 { s with
      readAnswers := rest, count := s.maxCycles
      trace := s.trace ++ (List.replicate (s.maxCycles + 1) l).map (Event.read s.pin) } = t) :
    PhaseRun (s.maxCycles + 1) s t := by
  have hcount := phaseRun_count (k := s.maxCycles) (rest := l :: rest) hp hl (by omega)
    (by simpa [List.replicate_succ'] using ha)
  have hlast := hcount.trans (.one (Phase.ne_idle_of_polls hp) (phaseNext_timeout hp hl (by simp) rfl))
  subst ht
  simpa [List.replicate_succ', hc] using hlast

/-- The polls of one pulse with ceiling `m`: `some w` one of width w, `none` one that times out (R211, R212). -/
def pulsePolls (m : Nat) (l : Level) : Option Nat → List Level
  | some w => seg l w
  | none => List.replicate (m + 1) l

theorem pulseScript_cons (m j : Nat) (w : Option Nat) (ws : List (Option Nat)) :
    pulseScript m j (w :: ws) = pulsePolls m (if j % 2 = 0 then .low else .high) w ++ pulseScript m (j + 1) ws := by
  cases w <;> rfl

/-- A Pulse returns its width, or 0 where it times out, after its polls alone (R211, R212). -/
theorem phaseRun_pulsePolls {w : Option Nat} {s t : State} {l : Level} {rest : List Level}
    (hp : s.phase.polls = true) (hl : s.awaited = l) (hc : s.count = 0) (hw : ∀ k, w = some k → k ≤ s.maxCycles)
    (ha : s.readAnswers = pulsePolls s.maxCycles l w ++ rest)
    (ht : State.pulseDone (w.getD 0) { s with
      readAnswers := rest, count := w.getD s.maxCycles
      trace := s.trace ++ (pulsePolls s.maxCycles l w).map (Event.read s.pin) } = t) :
    PhaseRun (pulsePolls s.maxCycles l w).length s t := by
  cases w with
  | some k => simpa [pulsePolls] using phaseRun_pulse hp hl hc (hw k rfl) ha ht
  | none => simpa [pulsePolls] using phaseRun_timeout hp hl hc ha ht

/-- The capture stores what its pulses return from `S.idx` on, a timeout's 0 included, never stops early, and ends with
the 80th (R170, R171). -/
theorem phaseRun_pulseScript {ws : List (Option Nat)} {s : State} {rest : List Level} (hp : s.phase = .capture)
    (hc : s.count = 0) (hlen : s.idx.val + ws.length = 80) (hw : ∀ w ∈ ws, ∀ k, w = some k → k ≤ s.maxCycles)
    (ha : s.readAnswers = pulseScript s.maxCycles s.idx.val ws ++ rest) :
    ∃ (pw : Widths) (idx : Fin 80) (draws : Nat), pw.toList = s.pw.toList.take s.idx.val ++ ws.map (·.getD 0) ∧
      PhaseRun (pulseScript s.maxCycles s.idx.val ws).length s { s with
        phase := .capUnmask, count := 0, readAnswers := rest
        trace := s.trace ++ (pulseScript s.maxCycles s.idx.val ws).map (Event.read s.pin)
        pw := pw, idx := idx, draws := draws } := by
  induction ws generalizing s with
  | nil => exact absurd hlen s.idx.isLt.ne
  | cons w ws ih =>
    obtain ⟨hw, hws⟩ := List.forall_mem_cons.1 hw
    rw [List.length_cons] at hlen
    rw [pulseScript_cons] at ha ⊢
    have hpulse {t : State} := phaseRun_pulsePolls (t := t) (by rw [hp]; rfl) (awaited_capture hp) hc hw
      (ha.trans (List.append_assoc _ _ _))
    by_cases hi : s.idx.val + 1 < 80
    · have hfirst := hpulse (pulseDone_capture (by exact hp) (by exact hi))
      obtain ⟨pw, idx, draws, hpw, hrun⟩ := ih (s := { s with
        pw := s.pw.set s.idx.val (w.getD 0) s.idx.isLt, idx := ⟨s.idx.val + 1, hi⟩, count := 0
        readAnswers := pulseScript s.maxCycles (s.idx.val + 1) ws ++ rest
        trace := s.trace ++
          (pulsePolls s.maxCycles (if s.idx.val % 2 = 0 then .low else .high) w).map (Event.read s.pin) })
        hp rfl (by simp only; omega) hws rfl
      refine ⟨pw, idx, draws, ?_, ?_⟩
      · simpa [widths_take_set] using hpw
      · simpa using hfirst.trans hrun
    · have hlast := hpulse (pulseDone_capture_last hp hi)
      obtain rfl : ws = [] := List.eq_nil_of_length_eq_zero (by omega)
      refine ⟨s.pw.set s.idx.val (w.getD 0) s.idx.isLt, _, _, ?_, by simpa [pulseScript] using hlast⟩
      have h80 : s.idx.val + 1 = 80 := by omega
      rw [List.map_singleton, ← widths_take_set, h80]
      simp

/-- Settles O48: the run of the pulses from pulse 0, with the countdown of the caller beside it. -/
theorem captureRecordsEveryWidth : Obligations.CaptureRecordsEveryWidth := by
  intro s ws rest hr hp hc hi hlen hw ha hq
  have hzero : s.idx.val = 0 := by rw [hi]; rfl
  obtain ⟨pw, idx, draws, hpw, hrun⟩ :=
    phaseRun_pulseScript hp hc (by omega) hw (by rw [hzero]; exact ha)
  rw [hzero] at hpw hrun
  exact ⟨_, hrun.steps hr hq, hpw, rfl⟩

end Sys2Proof.Machine

/-! ## The checksum and what it decides (44_checksum_cache.md, R190 to R195)

Modulo 256 the sum is addition of bytes: a change of one data byte changes it by as much, so a passing payload fails
after any change of one byte, and passes after two changes of data bytes that cancel. -/

namespace Sys2Proof.Machine

/-! ### The step of CHECKSUM (R190 to R192) -/

theorem phaseNext_checksum {s : State} (hp : s.phase = .checksum) : phaseNext s = s.checksumStep := by
  rw [phaseNext, hp]

/-- Settles O36: the step of CHECKSUM has two ends, and `checksumOk` is R190's comparison of numbers. -/
theorem checksumDecidesValidity : Obligations.ChecksumDecidesValidity := by
  intro s hr hp hq
  rw [step_quiet hr (by simp [hp]) hq, phaseNext_tickBy, phaseNext_checksum hp]
  congr 1
  obtain ⟨hk, he⟩ | ⟨hk, he⟩ := checksumStep_cases s <;> rw [he]
  · exact (if_pos (checksumOk_iff.1 hk)).symm
  · exact (if_neg (checksumOk_iff.not.1 (by simp [hk]))).symm

/-- Of the answers to NOW_MS the stamp alone writes `S.valid`: it clears it (R133). -/
theorem afterNowMs_valid (t : Nat) (s : State) :
    (s.afterNowMs t).valid = if s.phase = .runStamp then false else s.valid := by
  unfold State.afterNowMs
  cases s.phase with
  | runAvail => simp only; split <;> rfl
  | _ => rfl

/-- Of the phases the stamp clears `S.valid`, and CHECKSUM alone can set it (R20, R133, R192). -/
theorem phaseNext_valid (s : State) :
    (phaseNext s).valid =
      if s.phase = .runStamp then false
      else if s.phase = .checksum then s.valid || checksumOk s.payload
      else s.valid := by
  unfold phaseNext
  cases hp : s.phase with
  | runAvail | runStamp | availQuery => simp [afterNowMs_valid, hp]
  | ackLow | ackHigh | capture => rw [poll_eq]; rfl
  | decode => obtain h | h := decodeStep_cases s <;> simp [h]
  | checksum => obtain ⟨hk, h⟩ | ⟨hk, h⟩ := checksumStep_cases s <;> simp [h, hk]
  | _ => rfl

theorem phaseNext_sets_valid {s : State} (hs : s.valid = false) (ht : (phaseNext s).valid = true) :
    s.phase = .checksum ∧ checksumOk s.payload = true := by
  rw [phaseNext_valid, hs] at ht
  split at ht
  · cases ht
  split at ht
  next hp => exact ⟨hp, by simpa using ht⟩
  · cases ht

theorem commandEffect_keeps_invalid {i : Instr} {s : State} (hs : s.valid = false) (ha : commandAccepted i s = true) :
    (commandEffect i s).valid = false := by
  obtain ⟨pin, cpu, -, -, -, he⟩ | ⟨-, -, he⟩ | ⟨p, c, -, -, -, he⟩ := commandEffect_cases ha <;> rw [he]
  exacts [hs, hs]

/-- Settles O58: commands never set `S.valid`, and of the phases CHECKSUM alone does, where the checksum matches. -/
theorem onlyChecksumSetsValid : Obligations.OnlyChecksumSetsValid := by
  intro s t h hs ht
  obtain ⟨-, ⟨i, rest, -, -, -, ha, rfl⟩ | ⟨rest, rfl⟩ | ⟨-, rfl⟩ | ⟨-, rfl⟩⟩ := step_cases h
  · cases (commandEffect_keeps_invalid (s := { s with calls := rest }) hs ha).symm.trans ht
  · cases hs.symm.trans ht
  · cases hs.symm.trans ht
  · obtain ⟨hp, hk⟩ := phaseNext_sets_valid (s := s.tick) hs ht
    rw [phaseNext_checksum hp, State.checksumStep, if_pos hk]
    exact ⟨hp, hk, rfl, rfl⟩

/-! ### The errors it detects (R194, R195) -/

/-- The sum of bytes 0 to 3 modulo 256 (R190). -/
def dataSum (p : Payload) : Byte := p[0] + p[1] + p[2] + p[3]

theorem checksumOk_iff_dataSum {p : Payload} : checksumOk p = true ↔ p[4] = dataSum p := by
  simp [checksumOk, checksumOf, dataSum, BitVec.ofNat_add]

theorem dataSum_set (p : Payload) (k : Fin 4) (b : Byte) :
    dataSum (p.set k.val b) = dataSum p + (b - p[k.val]) := by
  fin_cases k <;> simp [dataSum] <;> ring

theorem dataSum_set_four (p : Payload) (b : Byte) : dataSum (p.set 4 b) = dataSum p := by
  simp [dataSum]

/-- In a passing payload each byte is fixed by the four others. -/
theorem checksumOk_set_iff {p : Payload} (h : checksumOk p = true) (k : Fin 5) (b : Byte) :
    checksumOk (p.set k.val b) = true ↔ b = p[k] := by
  rw [checksumOk_iff_dataSum] at h ⊢
  induction k using Fin.lastCases with
  | last => simp [dataSum_set_four, h]
  | cast k =>
    have hk : k.val ≠ 4 := k.isLt.ne
    have hcancel : dataSum p + (b - p[k.val]) = dataSum p ↔ b = p[k.val] := by
      rw [add_eq_left, sub_eq_zero]
    simpa [dataSum_set, hk, h, eq_comm (a := dataSum p)] using hcancel

theorem xor_twoPow_ne (b : Byte) (i : Fin 8) : b ^^^ BitVec.twoPow 8 i.val ≠ b := by
  have htwoPow : ∀ i : Fin 8, BitVec.twoPow 8 i.val ≠ 0#8 := by decide
  exact fun h => htwoPow i ((BitVec.xor_right_inj b).1 (h.trans BitVec.xor_zero.symm))

/-- Settles O41: a flip changes one byte, and the other four leave that byte no second value. -/
theorem singleBitFlipsAreDetected : Obligations.SingleBitFlipsAreDetected := by
  intro p k i h
  rw [← Bool.not_eq_true, checksumOk_set_iff h]
  exact xor_twoPow_ne p[k] i

/-- A change of two data bytes that keeps their sum keeps a passing payload passing (R195). -/
theorem checksumOk_set_set {p : Payload} {j k : Fin 4} {b c : Byte} (h : checksumOk p = true) (hjk : j ≠ k)
    (hsum : b + c = p[j.val] + p[k.val]) : checksumOk ((p.set j.val b).set k.val c) = true := by
  rw [checksumOk_iff_dataSum] at h ⊢
  have hj : j.val ≠ 4 := j.isLt.ne
  have hk : k.val ≠ 4 := k.isLt.ne
  have hne : j.val ≠ k.val := Fin.val_ne_of_ne hjk
  rw [dataSum_set, dataSum_set, Vector.getElem_set_ne, Vector.getElem_set_ne, Vector.getElem_set_ne, h]
  · linear_combination -hsum
  all_goals assumption

/-- Settles O42: both changes keep the sum of the two bytes. -/
theorem compensatingErrorsPass : Obligations.CompensatingErrorsPass := by
  intro p j k h hjk
  exact ⟨checksumOk_set_set h hjk (add_comm _ _), checksumOk_set_set h hjk (by ring)⟩

end Sys2Proof.Machine

/-! ## Polls and Pulses of any phase (45_pulse_measure.md, R210 to R213) -/

namespace Sys2Proof.Machine

/-- Settles O29: the request of the phase, executed, is the phase's poll, which counts the awaited level. -/
theorem pollCountsAwaitedLevel : Obligations.PollCountsAwaitedLevel := by
  intro s ls hr hp ha hc
  rw [exec_phaseRequest hr (phaseRequest_of_polls hp), phaseNext_awaited hp rfl hc ha]

/-- The phase gets what the Pulse returned with the countdown of the caller already moved, as the Pulse's end neither
reads nor writes it (log 11). -/
theorem PhaseRun.steps_pulseDone {n w : Nat} {s u : State} (h : PhaseRun n s (u.pulseDone w))
    (hr : s.refused = false) (hq : s.quietFor n) : Steps n s ((u.tickBy n).pulseDone w) := by
  rw [pulseDone_tickBy]
  exact h.steps hr hq

/-- Settles O46: `k` counted polls and the one that sees the change, as steps of the machine. -/
theorem pulseMeasuresWidth : Obligations.PulseMeasuresWidth :=
  fun _ _ _ hr hp hq hc hk ha => (phaseRun_pulse hp rfl hc hk ha rfl).steps_pulseDone hr hq

/-- Settles O47: the counted polls up to the ceiling and the one past it, as steps of the machine. -/
theorem pulseTimesOut : Obligations.PulseTimesOut :=
  fun _ _ hr hp hq hc ha => (phaseRun_timeout hp rfl hc ha rfl).steps_pulseDone hr hq

end Sys2Proof.Machine

/-! ## The pin of every event (46_host_requests.md, R242)

The event of a phase names `S.pin` or no pin; an UNBUILT engine takes no step of a phase, so the pin that CONSTRUCT sets
meets an empty trace. -/

namespace Sys2Proof.Machine

theorem phaseEvent_pin {s : State} {e : Event} (h : phaseEvent s = some e) : e.pin? = none ∨ e.pin? = some s.pin := by
  unfold phaseEvent at h
  split at h <;> cases h <;> simp [Event.pin?]

theorem phaseNext_keeps_pin (s : State) (h : s.PinInv) : (phaseNext s).PinInv := by
  obtain ⟨hpin, hlife⟩ := h
  refine ⟨fun e he => ?_, fun hl => ?_⟩
  · rw [phaseNext_pin]
    rw [phaseNext_trace, List.mem_append, Option.mem_toList] at he
    exact he.elim (hpin e) phaseEvent_pin
  · have hl' : s.life = .unbuilt := by
      rw [phaseNext_life] at hl
      split at hl
      · cases hl
      · exact hl
    obtain ⟨ht, hp⟩ := hlife hl'
    have hidle : phaseNext s = s := by rw [phaseNext, hp]
    rw [hidle]
    exact ⟨ht, hp⟩

theorem commandEffect_keeps_pin (i : Instr) (s : State) (ha : commandAccepted i s = true) (h : s.PinInv) :
    (commandEffect i s).PinInv := by
  obtain ⟨hpin, hlife⟩ := h
  obtain ⟨pin, cpu, -, hl, -, he⟩ | ⟨-, hl, he⟩ | ⟨p, c, -, hl, -, he⟩ := commandEffect_cases ha <;> rw [he]
  · obtain ⟨ht, -⟩ := hlife hl
    exact ⟨by simp [ht], nofun⟩
  · have hbuilt : s.life ≠ .unbuilt := by obtain hl | hl := hl <;> simp [hl]
    exact ⟨hpin, fun hu => absurd hu hbuilt⟩
  · exact ⟨hpin, fun hu => by cases hl.symm.trans hu⟩

/-- Settles O56: CONSTRUCT finds an empty trace, no other command writes the pin, and each phase names it. -/
theorem stepKeepsPin : Obligations.StepKeepsPin := fun _ _ h hs =>
  step_preserves (fun _ _ h => h) (fun _ h => h) (fun _ h => h) (fun i s _ => commandEffect_keeps_pin i s)
    phaseNext_keeps_pin h hs

end Sys2Proof.Machine

/-! ## The host requests (46_host_requests.md, R231 to R239)

A request executed by itself is the step of the phase where the phase issues it, and its event alone where it does not
(log 12), so each request needs to be known by the phases that issue it. -/

namespace Sys2Proof.Machine

/-! ### The phases that issue a request (R28) -/

theorem Mode.code_inj {m n : Mode} : m.code = n.code ↔ m = n := by
  rw [← Mode.ofCode_eq_some, Mode.ofCode_code, Option.some_inj, eq_comm]

theorem phaseRequest_eq_setMode {s : State} {pin : PinId} {m : Mode} :
    phaseRequest s = some (.setMode pin m.code) ↔
      (s.phase = .stOutput ∧ pin = s.pin ∧ m = .output) ∨
      (s.phase = .stRelease ∧ pin = s.pin ∧ m = s.cfg.releaseMode) ∨
      (s.phase = .initMode ∧ pin = s.pin ∧ m = .inputPullup) := by
  unfold phaseRequest
  cases s.phase <;> simp [Mode.code_inj, eq_comm]

theorem phaseRequest_eq_write {s : State} {pin : PinId} {l : Level} :
    phaseRequest s = some (.write pin l) ↔
      (pin = s.pin ∧ l = .high ∧ s.phase = .stIdleHigh) ∨
      (pin = s.pin ∧ l = .low ∧ s.phase = .stWakeLow) ∨
      (pin = s.pin ∧ l = .high ∧ s.phase = .stEndHigh) := by
  unfold phaseRequest
  cases s.phase <;> simp [eq_comm]

theorem phaseRequest_eq_read {s : State} {pin : PinId} :
    phaseRequest s = some (.read pin) ↔ s.phase.polls = true ∧ pin = s.pin := by
  unfold phaseRequest
  cases s.phase <;> simp [Phase.polls, eq_comm]

theorem phaseRequest_eq_nowMs {s : State} :
    phaseRequest s = some .nowMs ↔ s.phase = .runAvail ∨ s.phase = .runStamp ∨ s.phase = .availQuery := by
  unfold phaseRequest
  cases s.phase <;> simp

theorem phaseRequest_eq_delayMs {s : State} {n : Word32} :
    phaseRequest s = some (.delayMs n) ↔
      (s.phase = .stIdleWait ∧ n = s.cfg.idleHighMs) ∨ (s.phase = .stWakeWait ∧ n = s.cfg.wakeLowMs) := by
  unfold phaseRequest
  cases s.phase <;> simp [eq_comm]

theorem phaseRequest_eq_delayUs {s : State} {n : Word32} :
    phaseRequest s = some (.delayUs n) ↔
      (s.phase = .stEndWait ∧ n = s.cfg.endHighUs) ∨ (s.phase = .stSettle ∧ n = s.cfg.settleUs) := by
  unfold phaseRequest
  cases s.phase <;> simp [eq_comm]

theorem phaseRequest_eq_preemptOff {s : State} : phaseRequest s = some .preemptOff ↔ s.phase = .capMask := by
  unfold phaseRequest
  cases s.phase <;> simp

theorem phaseRequest_eq_preemptOn {s : State} : phaseRequest s = some .preemptOn ↔ s.phase = .capUnmask := by
  unfold phaseRequest
  cases s.phase <;> simp

theorem phaseRequest_eq_debug {s : State} {c : Byte} :
    phaseRequest s = some (.debug c) ↔ s.phase = .failReport ∧ c = s.outcome.code := by
  unfold phaseRequest
  cases s.phase <;> simp [eq_comm]

/-- A request answers the step of the phase that issues it, and in another phase what it records (log 12). -/
theorem exec_of_completes {i : Instr} {f : State → State} {s e t : State}
    (hexec : exec i s = live s (completes i f e)) (hr : s.refused = false)
    (hreq : phaseRequest e = phaseRequest s) (hown : phaseRequest s = some i → phaseNext s = t)
    (hother : phaseRequest s ≠ some i → e = t) : exec i s = .next t := by
  by_cases hi : phaseRequest s = some i
  · rw [exec_phaseRequest hr hi, hown hi]
  · rw [hexec, live_of_live _ hr, completes_other (hreq ▸ hi), hother hi]

/-! ### SET_MODE, WRITE and the delays (R231, R232, R235, R236) -/

theorem exec_setMode_code (pin : PinId) (m : Mode) (s : State) :
    exec (.setMode pin m.code) s =
      live s (completes (.setMode pin m.code) State.afterSetMode (s.emit (.setMode pin m))) := by
  simp [exec, execSetMode]

/-- Settles O20: three phases issue a SET_MODE, each with its own mode. -/
theorem setModeEffect : Obligations.SetModeEffect := by
  intro s pin m hr
  refine exec_of_completes (exec_setMode_code pin m s) hr rfl (fun hi => ?own) (fun hi => ?other)
  case own =>
    obtain ⟨hp, rfl, rfl⟩ | ⟨hp, rfl, rfl⟩ | ⟨hp, rfl, rfl⟩ := phaseRequest_eq_setMode.1 hi <;>
      simp [phaseNext, hp, State.emit, State.goto]
  case other =>
    rw [Ne, phaseRequest_eq_setMode, not_or, not_or] at hi
    obtain ⟨houtput, hrelease, hinit⟩ := hi
    rw [if_neg houtput, if_neg hrelease, if_neg hinit]
    rfl

/-- Settles O22: three phases issue a WRITE, each with its own level. -/
theorem writeEffect : Obligations.WriteEffect := by
  intro s pin l hr
  refine exec_of_completes rfl hr rfl (fun hi => ?own) (fun hi => ?other)
  case own =>
    obtain ⟨rfl, rfl, hp⟩ | ⟨rfl, rfl, hp⟩ | ⟨rfl, rfl, hp⟩ := phaseRequest_eq_write.1 hi <;>
      simp [phaseNext, hp, State.emit, State.goto]
  case other =>
    rw [Ne, phaseRequest_eq_write, not_or, not_or] at hi
    obtain ⟨hidle, hwake, hend⟩ := hi
    rw [if_neg hidle, if_neg hwake, if_neg hend]
    rfl

/-- DELAY_MS (R235). -/
theorem exec_delayMs {s : State} (n : Word32) (hr : s.refused = false) :
    exec (.delayMs n) s = .next { s with
      trace := s.trace ++ [.delayMs n]
      phase :=
        if s.phase = .stIdleWait ∧ n = s.cfg.idleHighMs then .stOutput
        else if s.phase = .stWakeWait ∧ n = s.cfg.wakeLowMs then .stEndHigh
        else s.phase } := by
  refine exec_of_completes rfl hr rfl (fun hi => ?own) (fun hi => ?other)
  case own =>
    obtain ⟨hp, rfl⟩ | ⟨hp, rfl⟩ := phaseRequest_eq_delayMs.1 hi <;>
      simp [phaseNext, hp, State.emit, State.goto]
  case other =>
    rw [Ne, phaseRequest_eq_delayMs, not_or] at hi
    obtain ⟨hidle, hwake⟩ := hi
    rw [if_neg hidle, if_neg hwake]
    rfl

/-- DELAY_US (R236). -/
theorem exec_delayUs {s : State} (n : Word32) (hr : s.refused = false) :
    exec (.delayUs n) s = .next { s with
      trace := s.trace ++ [.delayUs n]
      count := if s.phase = .stSettle ∧ n = s.cfg.settleUs then 0 else s.count
      phase :=
        if s.phase = .stEndWait ∧ n = s.cfg.endHighUs then .stRelease
        else if s.phase = .stSettle ∧ n = s.cfg.settleUs then .ackLow
        else s.phase } := by
  refine exec_of_completes rfl hr rfl (fun hi => ?own) (fun hi => ?other)
  case own =>
    obtain ⟨hp, rfl⟩ | ⟨hp, rfl⟩ := phaseRequest_eq_delayUs.1 hi <;>
      simp [phaseNext, hp, State.emit, State.goto]
  case other =>
    rw [Ne, phaseRequest_eq_delayUs, not_or] at hi
    obtain ⟨hend, hsettle⟩ := hi
    rw [if_neg hend, if_neg hsettle, if_neg hsettle]
    rfl

/-- Settles O23: two phases issue each delay, each with its own parameter. -/
theorem delayEffect : Obligations.DelayEffect := fun _ n hr => ⟨exec_delayMs n hr, exec_delayUs n hr⟩

/-! ### The preemption requests and DEBUG (R237 to R239) -/

/-- Settles O24: CAP_MASK alone issues PREEMPT_OFF, and CAP_UNMASK alone PREEMPT_ON. -/
theorem preemptRequestsEffect : Obligations.PreemptRequestsEffect := by
  intro s hr
  constructor
  · refine exec_of_completes rfl hr rfl (fun hi => ?_) (fun hi => ?_)
    · have hp := phaseRequest_eq_preemptOff.1 hi
      simp [phaseNext_capMask hp, hp]
    · have hp := mt phaseRequest_eq_preemptOff.2 hi
      simp [State.emit, hp]
  · refine exec_of_completes rfl hr rfl (fun hi => ?_) (fun hi => ?_)
    · have hp := phaseRequest_eq_preemptOn.1 hi
      simp [phaseNext_capUnmask hp, hp]
    · have hp := mt phaseRequest_eq_preemptOn.2 hi
      simp [State.emit, hp]

/-- Settles O25: FAIL_REPORT alone issues DEBUG, with the code of `S.outcome`. -/
theorem debugEffect : Obligations.DebugEffect := by
  intro s code hr
  refine exec_of_completes rfl hr rfl (fun hi => ?own) (fun hi => ?other)
  case own =>
    obtain ⟨hp, rfl⟩ := phaseRequest_eq_debug.1 hi
    simp [phaseNext_failReport hp, hp]
  case other =>
    rw [if_neg (mt phaseRequest_eq_debug.2 hi)]
    rfl

theorem phaseEvent_eq_debug {s : State} {c : Byte} (h : phaseEvent s = some (.debug c)) :
    s.phase = .failReport ∧ c = s.outcome.code := by
  unfold phaseEvent at h
  split at h <;> cases h
  exact ⟨by assumption, rfl⟩

/-- Settles O38: the DEBUG appended is the event of FAIL_REPORT, where the invariant gives the other two facts. -/
theorem debugOnlyWhenEnabled : Obligations.DebugOnlyWhenEnabled := by
  intro s t c hinv hs ht
  obtain hsame | ⟨e, he, htrace⟩ := step_trace hs
  · simp [hsame] at ht
  · obtain rfl : e = .debug c := by simpa [htrace] using ht
    obtain ⟨hp, hc⟩ := phaseEvent_eq_debug he
    obtain ⟨-, -, -, -, -, hreport, -⟩ := hinv
    obtain ⟨hfailed, hdebug⟩ := hreport hp
    exact ⟨hdebug, hp, hfailed, hc⟩

/-! ### NOW_MS (R234) -/

/-- All an answer to NOW_MS changes, phase by phase (R102, R130, R132, R133). -/
theorem afterNowMs_writes (t : Nat) (s : State) :
    s.afterNowMs t = { s with
      lastTs := if s.phase = .runStamp then t else s.lastTs
      valid := if s.phase = .runStamp then false else s.valid
      outcome := if s.phase = .runAvail ∧ avail s.cfg t s.lastTs = false then .cached else s.outcome
      responses := if s.phase = .availQuery then s.responses ++ [.bit (avail s.cfg t s.lastTs)] else s.responses
      phase :=
        if s.phase = .runAvail then (if avail s.cfg t s.lastTs then .runStamp else .finish)
        else if s.phase = .runStamp then .stIdleHigh
        else if s.phase = .availQuery then .idle
        else s.phase } := by
  unfold State.afterNowMs
  cases hp : s.phase with
  | runAvail => cases avail s.cfg t s.lastTs <;> rfl
  | runStamp | availQuery => rfl
  | _ => cases s; cases hp; rfl

theorem afterNowMs_other {t : Nat} {s : State} (h : phaseRequest s ≠ some .nowMs) : s.afterNowMs t = s := by
  rw [Ne, phaseRequest_eq_nowMs, not_or, not_or] at h
  obtain ⟨havail, hstamp, hquery⟩ := h
  simp [afterNowMs_writes, havail, hstamp, hquery]

/-- What follows the answer depends on the phase alone, so NOW_MS has one form in every phase. -/
theorem exec_nowMs {s : State} (hr : s.refused = false) :
    exec .nowMs s = .next ((s.takeClock.emit (.nowMs s.nextClock)).afterNowMs s.nextClock) := by
  refine exec_of_completes rfl hr rfl (fun hi => ?own) (fun hi => ?other)
  case own =>
    obtain hp | hp | hp := phaseRequest_eq_nowMs.1 hi <;> rw [phaseNext, hp]
  case other => exact (afterNowMs_other (s := s.takeClock.emit _) hi).symm

/-- Settles O26: the listed answer is the one NOW_MS takes. -/
theorem nowMsEffect : Obligations.NowMsEffect := by
  intro s t ts hr hc ht
  rw [exec_nowMs hr, nextClock_of_listed hc ht, takeClock_of_listed hc]
  rfl

/-- Settles O27: the answer is `State.nextClock`, listed or free, which the clock's width bounds. -/
theorem nowMsCompletesOnAnyAnswer : Obligations.NowMsCompletesOnAnyAnswer := by
  intro s hr
  have hwrites := afterNowMs_writes s.nextClock (s.takeClock.emit (.nowMs s.nextClock))
  exact ⟨s.nextClock, _, nextClock_lt s, (exec_nowMs hr).trans (congrArg _ hwrites), rfl⟩

/-! ### READ (R233) -/

theorem pulseDone_keeps_idx (w : Nat) {s : State} (hp : s.phase ≠ .capture) : (s.pulseDone w).idx = s.idx := by
  unfold State.pulseDone
  cases h : s.phase with
  | capture => exact absurd h hp
  | ackLow | ackHigh => simp only; split <;> simp
  | _ => rfl

/-- Only the capture moves `S.idx` (R170). -/
theorem poll_keeps_idx (l : Level) {s : State} (hp : s.phase ≠ .capture) : (s.poll l).idx = s.idx := by
  obtain ⟨-, -, h⟩ | ⟨-, -, h⟩ | ⟨-, h⟩ := poll_cases l s <;> rw [h]
  · exact pulseDone_keeps_idx 0 hp
  · exact pulseDone_keeps_idx s.count hp

theorem pulseDone_keeps_outcome (w : Nat) {s : State} (hp : s.phase = .capture) :
    (s.pulseDone w).outcome = s.outcome := by
  obtain ⟨hpulse, -⟩ := pulseDone_capture_eq w hp
  rw [hpulse]

/-- No poll of the capture fails (R171). -/
theorem poll_keeps_outcome (l : Level) {s : State} (hp : s.phase = .capture) : (s.poll l).outcome = s.outcome := by
  obtain ⟨-, -, h⟩ | ⟨-, -, h⟩ | ⟨-, h⟩ := poll_cases l s <;> rw [h]
  · exact pulseDone_keeps_outcome 0 hp
  · exact pulseDone_keeps_outcome s.count hp

/-- READ in a phase that does not issue it is its event (log 12). -/
theorem exec_read_other {s : State} {pin : PinId} (hr : s.refused = false) (hi : phaseRequest s ≠ some (.read pin)) :
    exec (.read pin) s = .next (s.takeLevel.emit (.read pin s.nextLevel)) :=
  exec_of_completes rfl hr rfl (fun h => absurd h hi) (fun _ => rfl)

theorem exec_read_own {s : State} (hr : s.refused = false) (hp : s.phase.polls = true) :
    exec (.read s.pin) s = .next ((s.takeLevel.emit (.read s.pin s.nextLevel)).poll s.nextLevel) := by
  rw [exec_phaseRequest hr (phaseRequest_of_polls hp)]
  obtain h | h | h := Phase.polls_iff.1 hp <;> rw [phaseNext, h]

/-- A listed answer is the one READ takes (log 3). -/
theorem nextLevel_takeLevel_of_listed {s : State} {l : Level} {ls : List Level} (h : s.readAnswers = l :: ls) :
    s.nextLevel = l ∧ s.takeLevel.readAnswers = ls := by
  simp [State.nextLevel, h]

/-- Settles O28: READ is one poll of a phase that issues it, and otherwise its event; `poll_eq` is the frame of a poll. -/
theorem readCompletesAndFrames : Obligations.ReadCompletesAndFrames := by
  intro s pin hr
  by_cases hi : phaseRequest s = some (.read pin)
  · obtain ⟨hp, rfl⟩ := phaseRequest_eq_read.1 hi
    have hexec := exec_read_own hr hp
    rw [poll_eq] at hexec
    refine ⟨s.nextLevel, _, hexec, rfl, fun _ _ => nextLevel_takeLevel_of_listed, rfl, rfl, rfl, rfl, rfl, rfl,
      rfl, rfl, rfl, rfl, rfl, rfl, rfl, fun hc => ⟨if_neg hc, poll_keeps_idx _ hc⟩,
      fun hc => ⟨if_neg (by simp [hc]), poll_keeps_outcome _ hc⟩, fun hno => ?_⟩
    simp [hp] at hno
  · exact ⟨s.nextLevel, _, exec_read_other hr hi, rfl, fun _ _ => nextLevel_takeLevel_of_listed, rfl, rfl, rfl, rfl,
      rfl, rfl, rfl, rfl, rfl, rfl, rfl, rfl, rfl, fun _ => ⟨rfl, rfl⟩, fun _ => ⟨rfl, rfl⟩,
      fun _ => ⟨rfl, rfl, rfl, rfl, rfl, rfl⟩⟩

end Sys2Proof.Machine

/-! ## The failures of a run (60_exceptions.md, R302, R303, R308; 41_protocol_run.md, R135)

An acknowledgment that measures 0 and a capture that holds a 0 enter a failed run alike: by `State.fail`, whose draws
stay in the payload and the counter of free values. -/

namespace Sys2Proof.Machine

/-- All a failure writes, its draws left open (R28, R135, R308; log 4). -/
theorem fail_writes (k : OutcomeCode) (s : State) :
    s.fail k = { s with
      outcome := k
      phase := if s.cfg.debugEnabled then .failReport else .finish
      payload := (s.fail k).payload, draws := (s.fail k).draws } := by
  cases k <;> rfl

/-- An acknowledgment whose Pulse returns 0 fails (R155, R156). -/
theorem pulseDone_ack_zero {s : State} (hp : s.phase = .ackLow ∨ s.phase = .ackHigh) :
    s.pulseDone 0 = s.fail .startFail := by
  obtain hp | hp := hp <;> simp [State.pulseDone, hp]

/-- Settles O31: both polls end the Pulse with 0, the counter or the sentinel, and the acknowledgment fails. -/
theorem ackZeroWidthIsStartFail : Obligations.AckZeroWidthIsStartFail := by
  intro s l ls hr hp ha hzero
  have hpolls : s.phase.polls = true := by obtain hp | hp := hp <;> rw [hp] <;> rfl
  have hends : l ≠ s.awaited ∨ s.maxCycles ≤ s.count := hzero.imp And.left And.right
  have hwidth : (if l = s.awaited then 0 else s.count) = 0 := by
    obtain ⟨hl, hc⟩ | ⟨hl, -⟩ := hzero
    · exact (if_neg hl).trans hc
    · exact if_pos hl
  have hexec := exec_phaseRequest hr (phaseRequest_of_polls hpolls)
  rw [phaseNext_poll_ends hpolls ha hends, hwidth, pulseDone_ack_zero (by exact hp)] at hexec
  exact ⟨_, hexec, fail_writes _ _⟩

/-- The 80 widths are the low and high widths of the 40 pairs, so any 0 among them is a timeout (R173, R174). -/
theorem captureTimedOut_of_zero {pw : Widths} (j : Fin 80) (h : pw[j] = 0) : captureTimedOut pw = true := by
  rw [captureTimedOut_iff]
  refine ⟨⟨j.val / 2, by omega⟩, ?_⟩
  obtain hj | hj : 2 * (j.val / 2) = j.val ∨ 2 * (j.val / 2) + 1 = j.val := by omega
  · left
    simpa [lowWidth, hj] using h
  · right
    simpa [highWidth, hj] using h

/-- DECODE of a capture in which a pulse timed out (R174, R303). -/
theorem phaseNext_decode_timedOut {s : State} (hp : s.phase = .decode) (ht : captureTimedOut s.pw = true) :
    phaseNext s = s.fail .captureTimeout := by
  have hs : phaseNext s = s.decodeStep := by rw [phaseNext, hp]
  rw [hs, State.decodeStep, if_pos ht]

/-- Settles O35: whichever width is 0, DECODE finds a timeout and fails. -/
theorem zeroWidthIsCaptureTimeout : Obligations.ZeroWidthIsCaptureTimeout := by
  intro s j hr hp hq hzero
  have hstep := step_quiet hr (by simp [hp]) hq
  rw [phaseNext_decode_timedOut (s := s.tickBy 1) hp (captureTimedOut_of_zero j hzero)] at hstep
  exact ⟨_, hstep, fail_writes _ (s.tickBy 1)⟩

end Sys2Proof.Machine

/-! ## Reset and idling (70_reset_and_hazards.md, R400, R411; 60_exceptions.md, R317) -/

namespace Sys2Proof.Machine

/-- Bytes that are no whole command issue none, in any phase (log 10). -/
theorem noCommand_of_truncated {s : State} (hd : decodeCommand s.cfg.pinBytes s.calls = .error .truncated) :
    s.noCommand := by
  simp [State.noCommand, fetch, hd]

theorem step_idle {s : State} (hr : s.refused = false) (hp : s.phase = .idle) (hc : s.noCommand) :
    step s = .next s := by
  have hw : phaseWork s = .internal := by rw [phaseWork, phaseRequest, hp]
  have hf : fetch s = .internal := (show fetch s = phaseWork s from hc).trans hw
  unfold step cycle
  rw [if_neg (by simp [hr]), hf]
  exact if_pos hp

/-- Settles O8: with no whole command none is taken, and IDLE has no step of its own. -/
theorem idleKeepsAllState : Obligations.IdleKeepsAllState :=
  fun _ hr hp hd => step_idle hr hp (noCommand_of_truncated hd)

/-! ### The clock after INITIALIZE (R101, R108, R411) -/

/-- INITIALIZE stamps the time one interval before clock value 0, so at `t` the interval and `t` have elapsed (R101). -/
theorem elapsed_since_init (b t m : Nat) : elapsed b t (elapsed b 0 m) = (t + m) % 2 ^ b := by
  have h : (elapsed b t (elapsed b 0 m) : Int) = ((t + m : Nat) : Int) % 2 ^ b := by
    rw [elapsed_eq_emod, elapsed_eq_emod, Int.sub_emod_emod]
    congr 1
    push_cast
    ring
  exact_mod_cast h

/-- A sum of a residue and at most the modulus falls below the addend exactly when it wraps. -/
theorem add_mod_lt_iff {n t m : Nat} (hm : m ≤ n) (ht : t < n) : (t + m) % n < m ↔ n - m ≤ t := by
  by_cases hwrap : t + m < n
  · rw [Nat.mod_eq_of_lt hwrap]
    omega
  · rw [Nat.mod_eq_sub_mod (by omega), Nat.mod_eq_of_lt (by omega)]
    omega

theorem avail_since_init_eq_false {c : Config} {t : Nat} (hm : c.minIntervalMs ≤ 2 ^ c.msBits)
    (ht : t < 2 ^ c.msBits) :
    avail c t (elapsed c.msBits 0 c.minIntervalMs) = false ↔ 2 ^ c.msBits - c.minIntervalMs ≤ t := by
  rw [← Bool.not_eq_true, avail_iff, elapsed_since_init, Nat.not_le, add_mod_lt_iff hm ht]

/-- Settles O19: the interval has not elapsed exactly where the clock value and the interval wrap around. -/
theorem clockWindowAfterInit : Obligations.ClockWindowAfterInit := by
  refine ⟨fun c t hm ht => avail_since_init_eq_false hm ht, fun t ht => ?_⟩
  have hstamp : elapsed defaultConfig.msBits 0 defaultConfig.minIntervalMs = 0xFFFFF830 := by decide
  have hfirst : 2 ^ defaultConfig.msBits - defaultConfig.minIntervalMs = 0xFFFFF830 := by decide
  have hwindow := avail_since_init_eq_false (c := defaultConfig) (by decide) ht
  rwa [hstamp, hfirst] at hwindow

/-! ### The state after reset (R6, R400) -/

theorem reset_inv : State.reset.Inv := by decide

/-- The pin and the widths are 0 (log 5), within any width. -/
theorem reset_widthInv : State.reset.WidthInv := by
  refine ⟨by decide, by decide, by decide, by decide, fun w hw => ?_⟩
  obtain rfl : w = 0 := by simpa [State.reset] using hw
  decide

theorem reset_bracketInv : State.reset.BracketInv := by decide

theorem reset_pinInv : State.reset.PinInv := ⟨nofun, fun _ => ⟨rfl, rfl⟩⟩

/-- Settles O52: the four invariants hold of reset, which is where a run of the machine begins. -/
theorem resetMeetsInvariants : Obligations.ResetMeetsInvariants :=
  ⟨rfl, rfl, rfl, reset_inv, reset_widthInv, reset_bracketInv, reset_pinInv⟩

end Sys2Proof.Machine
